-- ==== Sys2Proof/Word.lean ====
section
/-! DEFINITION. The two word sizes of CORE (rule R12): bytes on the host channels and the data lines, and the
16-bit timeout registers and counters. -/

namespace Sys2Proof

/-- A byte on a host channel or on the data lines (R12). Bit 0 is the least significant bit (R13). -/
abbrev Byte := BitVec 8

/-- A 16-bit timeout threshold or counter (R12). -/
abbrev Half := BitVec 16

end Sys2Proof
end

