-- ==== Sys2Proof/Config.lean ====
section
/-! DEFINITION. The configuration record `Cfg` of rule R11, its defaults and the fixed reply codes. Its constraints are
`Cfg.ok` (WellFormed.lean). The spec leaves no value free that a rule reads, so there is
no free value (no `opaque` constant) in this model. -/

namespace Sys2Proof

/-- The width of `byte_timeout`, `BYTE_TIMEOUT_BITS` of R11: 8 or 16. -/
inductive TimeoutWidth where
  | w8
  | w16
  deriving DecidableEq, Repr

/-- The number of bits of a `TimeoutWidth`. -/
def TimeoutWidth.bits : TimeoutWidth → Nat
  | .w8 => 8
  | .w16 => 16

/-- The configuration record of R11, one field per row of its table. The five numeric reply codes are fixed and stand
below as constants; `TICK_PERIOD` is documentation (`tickPeriodMicros`). -/
structure Cfg where
  /-- `ESCAPE`: the escape byte of the framing codec. -/
  escape : Byte
  /-- `BLOCK_START`: second byte of the block-start marker. -/
  blockStart : Byte
  /-- `BLOCK_END`: second byte of the block-end marker. -/
  blockEnd : Byte
  /-- `CHECKPOINT`: second byte of the checkpoint sequence. -/
  checkpoint : Byte
  /-- `ACK`: success reply. -/
  ack : Byte
  /-- `NAK`: syntax, format and framing error reply. -/
  nak : Byte
  /-- `CHECKPOINT_ACK`: the byte sent to the host on a checkpoint. -/
  checkpointAck : Byte
  /-- `NULL_BYTE`: what `B` reports on a no-data timeout. -/
  nullByte : Byte
  /-- `LEADER0`. -/
  leader0 : Byte
  /-- `LEADER1`. -/
  leader1 : Byte
  /-- `TERM`: the line terminator. -/
  term : Byte
  /-- `MAX_CMD_LEN`: greatest number of body bytes. -/
  maxCmdLen : Nat
  /-- `SRQ_NOTIFY`: the service-request notification byte. -/
  srqNotify : Byte
  /-- `BYTE_TIMEOUT_BITS`. -/
  byteTimeoutWidth : TimeoutWidth
  /-- `RESET_REN`. -/
  resetRen : Bool
  /-- `RESET_WRITE_MODE`. -/
  resetWriteMode : BitVec 3
  /-- `RESET_SRQ_MONITOR`. -/
  resetSrqMonitor : Bool
  /-- `RESET_BYTE_TIMEOUT`. -/
  resetByteTimeout : Half
  /-- `RESET_FIRST_BYTE_TIMEOUT`. -/
  resetFirstByteTimeout : Half
  /-- `RESET_TOTAL_TIMEOUT`. -/
  resetTotalTimeout : Half
  /-- `ID_STRING[0]`. -/
  idString0 : List Byte
  /-- `ID_STRING[1]`. -/
  idString1 : List Byte
  /-- `ID_STRING[2]`. -/
  idString2 : List Byte
  deriving DecidableEq, Repr

/-- `ERR_NOT_READY` (R11, value fixed). -/
def errNotReady : Byte := 0x01#8
/-- `ERR_NOT_ACCEPTED` (R11, value fixed). -/
def errNotAccepted : Byte := 0x02#8
/-- `ERR_DAV_NOT_RELEASED` (R11, value fixed). -/
def errDavNotReleased : Byte := 0x03#8
/-- `ERR_NO_LISTENER` (R11, value fixed). -/
def errNoListener : Byte := 0x08#8
/-- `ERR_NO_DATA` (R11, value fixed). -/
def errNoData : Byte := 0x09#8

/-- The five numeric reply codes (R11, R127). -/
def errorCodes : List Byte := [errNotReady, errNotAccepted, errDavNotReleased, errNoListener, errNoData]

/-- `TICK_PERIOD` in microseconds, "~32.768 ms" (R11, R395). Documentation: no rule reads it. -/
def tickPeriodMicros : Nat := 32768

/-- `ID_STRING[n]` (R11, R308). -/
def Cfg.idString (c : Cfg) : Fin 3 → List Byte
  | 0 => c.idString0
  | 1 => c.idString1
  | 2 => c.idString2

/-- The defaults of R11. -/
def Cfg.default : Cfg where
  escape := 0x10#8
  blockStart := 0x02#8
  blockEnd := 0x03#8
  checkpoint := 0x05#8
  ack := 0x06#8
  nak := 0x15#8
  checkpointAck := 0x06#8
  nullByte := 0x00#8
  leader0 := 0x49#8
  leader1 := 0x42#8
  term := 0x0A#8
  maxCmdLen := 16
  srqNotify := 0x07#8
  byteTimeoutWidth := .w8
  resetRen := true
  resetWriteMode := 0#3
  resetSrqMonitor := false
  resetByteTimeout := 31#16
  resetFirstByteTimeout := 0#16
  resetTotalTimeout := 0#16
  idString0 := []
  idString1 := []
  idString2 := []

end Sys2Proof
end

