-- ==== Sys2Proof/Syntax.lean ====
section
/-! DEFINITION. The instructions of CORE: one constructor for each of the 24 rows of spec/opcode_table.json
(LAWS.json maps them). An instruction is one host command (R4), or, inside a block, one sequence of the framing codec
(R125), or a stretch of host bytes that is no command (R130 to R132). -/

namespace Sys2Proof

/-- A body that is no command (R130, R131). -/
inductive BadBody where
  /-- The body of a line, closed by `TERM`, that no row 1 to 15 of R111 matches. -/
  | line (body : List Byte)
  /-- `MAX_CMD_LEN` body bytes and the next byte, which is not `TERM` (R258). -/
  | oversized (body : List Byte) (next : Byte)
  deriving DecidableEq, Repr

/-- The byte at which a leader failed to match (R253, R254). -/
inductive BadLeader where
  /-- The first byte is not `LEADER0`. -/
  | first (b : Byte)
  /-- The first byte is `LEADER0`, the second is not `LEADER1`. -/
  | second (b : Byte)
  deriving DecidableEq, Repr

/-- The byte that did not fit, the argument of `Resync` (R254). -/
def BadLeader.byte : BadLeader → Byte
  | .first b => b
  | .second b => b

/-- The digits of a decimal operand as written, most significant first, leading zeros kept (R121). -/
abbrev Digits := List (Fin 10)

/-- The instructions. -/
inductive Instr where
  /-- `PWRON` (R280). -/
  | pwron
  /-- `C xx` (R281): send a bus command byte, release attention after. -/
  | busCmdRelease (b : Byte)
  /-- `c xx` (R281): send a bus command byte, keep attention asserted. -/
  | busCmdHold (b : Byte)
  /-- `BLK` (R284): the header; the block's items follow as instructions of their own (R257). -/
  | blk
  /-- `?` (R285): receive a block. -/
  | recvBlk
  /-- `B` (R286): receive one byte. -/
  | recvByte
  /-- `Z` (R287): bus reset. -/
  | busRst
  /-- `O` (R288): power off. -/
  | pwrOff
  /-- `e d` (R300): set the write mode. -/
  | setWriteMode (d : Digits)
  /-- `t d` (R301): set the byte timeout. -/
  | setByteTimeout (d : Digits)
  /-- `T d` (R302): set the total timeout. -/
  | setTotalTimeout (d : Digits)
  /-- `f d` (R303): set the first-byte timeout. -/
  | setFirstTimeout (d : Digits)
  /-- `m 0|1` (R305): set the REN policy. -/
  | setRen (x : Bool)
  /-- `Q 0|1` (R306): set the service-request monitor. -/
  | setSrq (x : Bool)
  /-- `I 0|1|2` (R308): identification string. -/
  | ident (n : Fin 3)
  /-- `S` (R309): status byte. -/
  | status
  /-- `ESC.START`: `ESCAPE BLOCK_START` inside a block, a violation (R126, R141 row 7). -/
  | escStart
  /-- `ESC.ESC`: `ESCAPE ESCAPE` inside a block, one payload byte `ESCAPE` (R141 row 3). -/
  | escEsc
  /-- `ESC.END`: `ESCAPE BLOCK_END` inside a block, its end (R144). -/
  | escEnd
  /-- `ESC.CHK`: `ESCAPE CHECKPOINT` inside a block (R145). -/
  | escChk
  /-- `ESC.other`: `ESCAPE x`, any other `x`, a violation (R146). -/
  | escOther (x : Byte)
  /-- `LITERAL`: one payload byte other than `ESCAPE` (R141 row 2). -/
  | literal (x : Byte)
  /-- `(syntax error)`: a body that is no command (R314, R258). -/
  | syntaxError (bad : BadBody)
  /-- `(resync)`: a leader mismatch; the bytes through the next `TERM` are discarded (R254). -/
  | resync (bad : BadLeader)
  deriving DecidableEq, Repr

/-- The states of the framing codec (R140). -/
inductive CodecState where
  | normal
  | sawEscape
  deriving DecidableEq, Repr

end Sys2Proof
end

