-- ==== Sys2Proof/Decode.lean ====
section
/-! DEFINITION. The decoder, total on any bytes, written as the parser automaton of R253 to R258 for commands and as
the item automaton of R125 and R141 for what stands inside a block, and after it the encoder. The machine's fetch
(Machine/Fetch.lean) drives the same automata byte by byte. -/

namespace Sys2Proof

/-! ## The command letters, as 7-bit ASCII (R13, R111; PRESUMED, log entry 18) -/

/-- `C` -/
def letterC : Byte := 0x43#8
/-- `c` -/
def letterLowerC : Byte := 0x63#8
/-- `?` -/
def letterQuery : Byte := 0x3F#8
/-- `B` -/
def letterB : Byte := 0x42#8
/-- `Z` -/
def letterZ : Byte := 0x5A#8
/-- `O` -/
def letterO : Byte := 0x4F#8
/-- `e` -/
def letterE : Byte := 0x65#8
/-- `t` -/
def letterT : Byte := 0x74#8
/-- `T` -/
def letterUpperT : Byte := 0x54#8
/-- `f` -/
def letterF : Byte := 0x66#8
/-- `m` -/
def letterM : Byte := 0x6D#8
/-- `Q` -/
def letterQ : Byte := 0x51#8
/-- `I` -/
def letterI : Byte := 0x49#8
/-- `S` -/
def letterS : Byte := 0x53#8

/-- The fourteen command letters. -/
def letters : List Byte :=
  [letterC, letterLowerC, letterQuery, letterB, letterZ, letterO, letterE, letterT, letterUpperT, letterF, letterM,
   letterQ, letterI, letterS]

/-! ## Decimal operands (R121) -/

/-- The character of a decimal digit, `0x30` to `0x39`. -/
def digitByte (d : Fin 10) : Byte := BitVec.ofNat 8 (0x30 + d.val)

/-- The digit a byte stands for, if it is one. -/
def digitOf (b : Byte) : Option (Fin 10) :=
  if h : 0x30 ≤ b.toNat ∧ b.toNat ≤ 0x39 then some ⟨b.toNat - 0x30, by omega⟩ else none

/-- The digits a byte string spells; `none` if any byte is no digit. -/
def digitsOf : List Byte → Option Digits
  | [] => some []
  | b :: bs =>
    match digitOf b, digitsOf bs with
    | some d, some ds => some (d :: ds)
    | _, _ => none

/-- The natural number whose decimal digits these are, most significant first. -/
def decimalValue (ds : Digits) : Nat := ds.foldl (fun v d => 10 * v + d.val) 0

/-- `ParseDec` on digits: `none` when there is none. -/
def Digits.parse : Digits → Option Nat
  | [] => none
  | d :: ds => some (decimalValue (d :: ds))

/-- `ParseDec` of R121 on a byte string. -/
def parseDec (bs : List Byte) : Option Nat := (digitsOf bs).bind Digits.parse

/-! ## `DecodeLine` (R111) -/

/-- A command that takes no operand byte. -/
def noOperand (ps : List Byte) (i : Instr) : Option Instr := if ps = [] then some i else none

/-- A command that takes exactly one literal operand byte (R120). -/
def literalOperand (ps : List Byte) (f : Byte → Instr) : Option Instr :=
  match ps with
  | [b] => some (f b)
  | _ => none

/-- A command that takes one of the characters `0`, `1` (R123). -/
def choiceOperand (ps : List Byte) (f : Bool → Instr) : Option Instr :=
  match ps with
  | [b] => if b = 0x30#8 then some (f false) else if b = 0x31#8 then some (f true) else none
  | _ => none

/-- The command `I`, which takes one of the characters `0`, `1`, `2` (R123). -/
def identOperand (ps : List Byte) : Option Instr :=
  match ps with
  | [b] =>
    if b = 0x30#8 then some (.ident 0) else if b = 0x31#8 then some (.ident 1)
    else if b = 0x32#8 then some (.ident 2) else none
  | _ => none

/-- A command that takes a decimal number of at most `top` if a bound is given (R121, R122). -/
def decimalOperand (ps : List Byte) (top : Option Nat) (f : Digits → Instr) : Option Instr :=
  match digitsOf ps with
  | none => none
  | some ds =>
    match Digits.parse ds with
    | none => none
    | some v =>
      match top with
      | none => some (f ds)
      | some m => if v ≤ m then some (f ds) else none

/-- Rows 1 to 15 of R111. DESIGN CHOICE (log entry 32): where a configuration makes `ESCAPE` a command letter, which R11
allows, R104 says that a body opening with it matches no command and R111 that it matches the letter's row; the rows of
R111 are followed, so `ESCAPE` plays no part here. -/
def lineCommand (body : List Byte) : Option Instr :=
  match body with
  | [] => some .pwron
  | l :: ps =>
    if l = letterC then literalOperand ps .busCmdRelease
    else if l = letterLowerC then literalOperand ps .busCmdHold
    else if l = letterQuery then noOperand ps .recvBlk
    else if l = letterB then noOperand ps .recvByte
    else if l = letterZ then noOperand ps .busRst
    else if l = letterO then noOperand ps .pwrOff
    else if l = letterE then decimalOperand ps (some 7) .setWriteMode
    else if l = letterT then decimalOperand ps none .setByteTimeout
    else if l = letterUpperT then decimalOperand ps none .setTotalTimeout
    else if l = letterF then decimalOperand ps none .setFirstTimeout
    else if l = letterM then choiceOperand ps .setRen
    else if l = letterQ then choiceOperand ps .setSrq
    else if l = letterI then identOperand ps
    else if l = letterS then noOperand ps .status
    else none

/-- `DecodeLine` (R111), row 16 included. -/
def decodeLine (body : List Byte) : Instr := (lineCommand body).getD (.syntaxError (.line body))

/-! ## The parser automaton (R253, R256) -/

/-- Where the parser stands: what `phase`, `leader_idx` and `cmd_buf` say of it (R50 to R52). -/
inductive ParseState where
  | leader0
  | leader1
  | body (buf : List Byte)
  deriving DecidableEq, Repr

/-- What one byte does to the parser. -/
inductive ParseResult where
  | more (st : ParseState)
  | done (i : Instr)
  deriving DecidableEq, Repr

/-- One byte taken by `Parse` at A1, A2 or A3 (R253, R256). The three tests of A3 stand in the order of R256. -/
def parseByte (c : Cfg) (st : ParseState) (b : Byte) : ParseResult :=
  match st with
  | .leader0 => if b = c.leader0 then .more .leader1 else .done (.resync (.first b))
  | .leader1 => if b = c.leader1 then .more (.body []) else .done (.resync (.second b))
  | .body buf =>
    if b = c.term then .done (decodeLine buf)
    else if buf = [c.escape] ∧ b = c.blockStart then .done .blk
    else if c.maxCmdLen ≤ buf.length then .done (.syntaxError (.oversized buf b))
    else .more (.body (buf ++ [b]))

/-! ## The item automaton, inside a block (R125, R141) -/

/-- The item an `ESCAPE` and its second byte make (R125). -/
def escapedItem (c : Cfg) (x : Byte) : Instr :=
  if x = c.escape then .escEsc
  else if x = c.blockEnd then .escEnd
  else if x = c.checkpoint then .escChk
  else if x = c.blockStart then .escStart
  else .escOther x

/-- The item a byte completes, given the codec state; `none` after a first `ESCAPE`. -/
def itemByte (c : Cfg) (st : CodecState) (b : Byte) : Option Instr :=
  match st with
  | .normal => if b = c.escape then none else some (.literal b)
  | .sawEscape => some (escapedItem c b)

/-! ## The decoder on byte strings -/

/-- Where the decoder is: at a command boundary, or inside a block. -/
inductive Context where
  | command
  | block
  deriving DecidableEq, Repr

/-- Why the decoder gives no instruction. Every byte string is a command, an error or discarded bytes (R133), so the
one reason is that the bytes end before an instruction does. -/
inductive DecodeError where
  /-- The bytes end inside an instruction: more are needed. -/
  | incomplete
  deriving DecidableEq, Repr

/-- The outcome of decoding: an instruction and the bytes after it, or an error by name. -/
inductive Decoded where
  | ok (r : Instr × List Byte)
  | error (e : DecodeError)
  deriving DecidableEq, Repr

/-- `Parse` run on a byte string from a parser state. -/
def decodeFrom (c : Cfg) : ParseState → List Byte → Decoded
  | _, [] => .error .incomplete
  | st, b :: bs =>
    match parseByte c st b with
    | .more st' => decodeFrom c st' bs
    | .done i => .ok (i, bs)

/-- The next item of a block, from a codec state. -/
def decodeItemFrom (c : Cfg) : CodecState → List Byte → Decoded
  | _, [] => .error .incomplete
  | st, b :: bs =>
    match itemByte c st b with
    | none => decodeItemFrom c .sawEscape bs
    | some i => .ok (i, bs)

/-- The decoder. For `BLK` and for the discarded bytes of `(resync)` and of an oversized line the instruction ends
where `Parse` recognises it (R257, R254, R258); what follows is consumed by its execution. -/
def decode (c : Cfg) : Context → List Byte → Decoded
  | .command, bs => decodeFrom c .leader0 bs
  | .block, bs => decodeItemFrom c .normal bs

/-! ## The encoder -/

/-- The character of a choice operand (R123). -/
def choiceByte (x : Bool) : Byte := if x then 0x31#8 else 0x30#8

/-- The body of a LINE command, the bytes between the leader and `TERM` (R101, R111); `none` for what is not of
format LINE. -/
def bodyOf : Instr → Option (List Byte)
  | .pwron => some []
  | .busCmdRelease b => some [letterC, b]
  | .busCmdHold b => some [letterLowerC, b]
  | .blk => none
  | .recvBlk => some [letterQuery]
  | .recvByte => some [letterB]
  | .busRst => some [letterZ]
  | .pwrOff => some [letterO]
  | .setWriteMode d => some (letterE :: d.map digitByte)
  | .setByteTimeout d => some (letterT :: d.map digitByte)
  | .setTotalTimeout d => some (letterUpperT :: d.map digitByte)
  | .setFirstTimeout d => some (letterF :: d.map digitByte)
  | .setRen x => some [letterM, choiceByte x]
  | .setSrq x => some [letterQ, choiceByte x]
  | .ident n => some [letterI, digitByte (n.castLE (by omega))]
  | .status => some [letterS]
  | .escStart => none
  | .escEsc => none
  | .escEnd => none
  | .escChk => none
  | .escOther _ => none
  | .literal _ => none
  | .syntaxError (.line body) => some body
  | .syntaxError (.oversized _ _) => none
  | .resync _ => none

/-- The context an instruction is decoded in. -/
def contextOf : Instr → Context
  | .pwron | .busCmdRelease _ | .busCmdHold _ | .blk | .recvBlk | .recvByte | .busRst | .pwrOff
  | .setWriteMode _ | .setByteTimeout _ | .setTotalTimeout _ | .setFirstTimeout _ | .setRen _ | .setSrq _
  | .ident _ | .status | .syntaxError _ | .resync _ => .command
  | .escStart | .escEsc | .escEnd | .escChk | .escOther _ | .literal _ => .block

/-- The bytes of an instruction, in order of transmission (R101, R102, R125, R131, R132). -/
def encode (c : Cfg) (i : Instr) : List Byte :=
  match bodyOf i with
  | some body => c.leader0 :: c.leader1 :: (body ++ [c.term])
  | none =>
    match i with
    | .blk => [c.leader0, c.leader1, c.escape, c.blockStart]
    | .escStart => [c.escape, c.blockStart]
    | .escEsc => [c.escape, c.escape]
    | .escEnd => [c.escape, c.blockEnd]
    | .escChk => [c.escape, c.checkpoint]
    | .escOther x => [c.escape, x]
    | .literal x => [x]
    | .syntaxError (.oversized body b) => c.leader0 :: c.leader1 :: (body ++ [b])
    | .resync (.first b) => [b]
    | .resync (.second b) => [c.leader0, b]
    | _ => []

/-! ## Words of the opcode table

The table writes an encoding as one number whose most significant byte is the first byte transmitted
(spec/INDEX.md). A row may give only the leading bytes of its instruction (log entry 12). -/

/-- The lowest `n` bytes of `w`, the most significant first. -/
def bytesOf : Nat → Nat → List Byte
  | 0, _ => []
  | n + 1, w => BitVec.ofNat 8 (w / 256 ^ n) :: bytesOf n w

/-- Whether the table's word is one of the block sequences: it opens with `ESCAPE`, or it is a single byte. -/
def tableContext (c : Cfg) (nbits w : Nat) : Context :=
  match bytesOf ((nbits + 7) / 8) w with
  | [] => .block
  | [_] => .block
  | b :: _ => if b = c.escape then .block else .command

/-- The operand of zero that completes an unfinished line: the digit `0` after a letter that takes a decimal number, a
zero byte after the leader alone, nothing else. -/
def zeroOperand : ParseState → List Byte
  | .body [] => [0x00#8]
  | .body [l] => if [letterE, letterT, letterUpperT, letterF].contains l then [0x30#8] else []
  | _ => []

/-- The bytes that complete an unfinished line of the table: an operand of zero, and the terminator. -/
def completion (c : Cfg) : ParseState → List Byte → List Byte
  | st, [] => zeroOperand st ++ [c.term]
  | st, b :: bs =>
    match parseByte c st b with
    | .more st' => completion c st' bs
    | .done _ => []

/-- The bytes of the instruction whose table word is `w`, in order of transmission. -/
def tableBytes (c : Cfg) (nbits w : Nat) : List Byte :=
  let bs := bytesOf ((nbits + 7) / 8) w
  match tableContext c nbits w with
  | .command => bs ++ completion c .leader0 bs
  | .block => if bs = [] then [0x00#8] else if bs = [c.escape] then bs ++ [0x00#8] else bs

/-- The instruction the decoder reads from a word of spec/opcode_table.json, for the default configuration. -/
def decodeTableWord (nbits w : Nat) : Option Instr :=
  match decode Cfg.default (tableContext Cfg.default nbits w) (tableBytes Cfg.default nbits w) with
  | .ok (i, _) => some i
  | .error _ => none

end Sys2Proof
end

