-- ==== Sys2Proof/WellFormed.lean ====
section
/-! DEFINITION. When an instruction term is one that some byte string encodes (R101 to R104, R120 to R126). The check
on a syntax error's body uses `decodeLine`, so this file comes after Decode.lean. -/

namespace Sys2Proof

/-- The constraints of R11's table, column "Constraint". -/
def Cfg.ok (c : Cfg) : Bool :=
  !([c.blockStart, c.blockEnd, c.checkpoint, c.term].contains c.escape)
  && !([c.blockEnd, c.checkpoint, c.term].contains c.blockStart)
  && c.blockEnd != c.checkpoint
  && !((c.nak :: c.srqNotify :: errorCodes).contains c.ack)
  && !((c.srqNotify :: errorCodes).contains c.nak)
  && !(errorCodes.contains c.srqNotify)
  && c.leader0 != c.term
  && c.leader1 != c.term
  && !(letters.contains c.term)
  && !(decide (0x30#8 ≤ c.term) && decide (c.term ≤ 0x39#8))
  && decide (6 ≤ c.maxCmdLen)
  && decide (c.resetByteTimeout.toNat < 2 ^ c.byteTimeoutWidth.bits)

/-- A body that may stand between a leader and `TERM` without being read as something else: no `TERM` in it (R101), at
most `MAX_CMD_LEN` bytes (R101), and not opening with the block-start marker (R103). -/
def bodyOk (c : Cfg) (body : List Byte) : Bool :=
  !(body.contains c.term) && decide (body.length ≤ c.maxCmdLen) && body.take 2 != [c.escape, c.blockStart]

/-- The operand itself is one the command takes (R111 rows 8 to 11, R121, R122). -/
def operandOk : Instr → Bool
  | .setWriteMode d =>
    match d.parse with
    | some v => decide (v ≤ 7)
    | none => false
  | .setByteTimeout d | .setTotalTimeout d | .setFirstTimeout d => d.parse.isSome
  | .syntaxError (.line body) => decodeLine body == .syntaxError (.line body)
  | .pwron | .busCmdRelease _ | .busCmdHold _ | .blk | .recvBlk | .recvByte | .busRst | .pwrOff | .setRen _ | .setSrq _
  | .ident _ | .status | .escStart | .escEsc | .escEnd | .escChk | .escOther _ | .literal _
  | .syntaxError (.oversized _ _) | .resync _ => true

/-- The bytes of what is not of format LINE are ones that name it and nothing else. -/
def bytesOk (c : Cfg) : Instr → Bool
  | .escOther x => !([c.escape, c.blockEnd, c.checkpoint, c.blockStart].contains x)
  | .literal x => x != c.escape
  | .syntaxError (.oversized body b) =>
    decide (body.length = c.maxCmdLen) && bodyOk c body && b != c.term
  | .resync (.first b) => b != c.leader0
  | .resync (.second b) => b != c.leader1
  | .pwron | .busCmdRelease _ | .busCmdHold _ | .blk | .recvBlk | .recvByte | .busRst | .pwrOff
  | .setWriteMode _ | .setByteTimeout _ | .setTotalTimeout _ | .setFirstTimeout _ | .setRen _ | .setSrq _
  | .ident _ | .status | .escStart | .escEsc | .escEnd | .escChk | .syntaxError (.line _) => true

/-- The instruction is one that a byte string encodes under the configuration. -/
def Instr.wf (c : Cfg) (i : Instr) : Bool :=
  operandOk i && bytesOk c i &&
  (match bodyOf i with
   | some body => bodyOk c body
   | none => true)

/-- The instruction is a well-formed command of R110, one that `Execute` runs (R259). -/
def Instr.isCommand : Instr → Bool
  | .pwron | .busCmdRelease _ | .busCmdHold _ | .blk | .recvBlk | .recvByte | .busRst | .pwrOff | .setWriteMode _
  | .setByteTimeout _ | .setTotalTimeout _ | .setFirstTimeout _ | .setRen _ | .setSrq _ | .ident _ | .status => true
  | .escStart | .escEsc | .escEnd | .escChk | .escOther _ | .literal _ | .syntaxError _ | .resync _ => false

end Sys2Proof
end

