-- ==== Sys2Proof/Machine/State.lean ====
section
/-! DEFINITION. The state of CORE as plain data: the six groups of rule R20, the foreground's position (R50), and the
environment the machine runs in (the two host channels, the input levels, and the schedule of what happens between
foreground steps). -/

namespace Sys2Proof.Machine

/-- `role` (R21). -/
inductive Role where
  | idle
  | talker
  | listener
  deriving DecidableEq, Repr

/-- `phase` (R50). -/
inductive Phase where
  | awaitLeader
  | awaitCommand
  | dispatch
  | transfer
  | cleanup
  deriving DecidableEq, Repr

/-- The handshake-specific reasons of `fail_reason` (R42); its value `None` is `Option.none`. -/
inductive Reason where
  | notReady
  | notAccepted
  | noListener
  | noData
  | davNotReleased
  | frameError
  deriving DecidableEq, Repr

/-- `xfer.dir` (R45). -/
inductive Direction where
  | send
  | receive
  deriving DecidableEq, Repr

/-- The parsed command, the tagged type of R110, the values already reduced to the register widths (R111). -/
inductive Command where
  | pwrOn
  | busCmd (b : Byte) (release : Bool)
  | sendBlk
  | recvBlk
  | recvByte
  | busRst
  | pwrOff
  | setWriteMode (v : BitVec 3)
  | setByteTimeout (v : Half)
  | setTotalTimeout (v : Half)
  | setFirstTimeout (v : Half)
  | setRen (x : Bool)
  | setSrq (x : Bool)
  | ident (n : Fin 3)
  | status
  | syntaxError
  deriving DecidableEq, Repr

/-- The outcome of a wait and of an engine operation (R17, R171). `cancelled` exists only inside ReceiveBlock. -/
inductive Result where
  | ok
  | failed (r : Reason)
  | suspended
  | cancelled
  deriving DecidableEq, Repr

/-- The session state register file (R21 to R26). -/
structure Session where
  /-- `role` (R21). -/
  role : Role
  /-- `ren_asserted` (R22). -/
  renAsserted : Bool
  /-- `write_mode` (R23). -/
  writeMode : BitVec 3
  /-- `srq_monitor_enabled` (R24). -/
  srqMonitor : Bool
  /-- `debug_mode_enabled` (R25). -/
  debugMode : Bool
  /-- `powered` (R26). -/
  powered : Bool
  deriving DecidableEq, Repr

/-- The timeout policy registers (R30 to R37). `byte_timeout` is held zero-extended to 16 bits (log entry 7). -/
structure Timers where
  /-- `byte_timeout` (R30), zero-extended. -/
  byteTimeout : Half
  /-- `first_byte_timeout` (R31). -/
  firstByteTimeout : Half
  /-- `total_timeout` (R32). -/
  totalTimeout : Half
  /-- `byte_ctr` (R33). -/
  byteCtr : Half
  /-- `total_ctr` (R34). -/
  totalCtr : Half
  /-- `use_first` (R35). -/
  useFirst : Bool
  /-- `op_active` (R36). -/
  opActive : Bool
  /-- `tick_armed` (R37). -/
  tickArmed : Bool
  deriving DecidableEq, Repr

/-- The abort registers (R40 to R44). -/
structure Abort where
  /-- `abort.timed_out` (R40). -/
  timedOut : Bool
  /-- `abort.suspended` (R41). -/
  suspended : Bool
  /-- `fail_reason` (R42). -/
  failReason : Option Reason
  /-- `resume_pending` (R44). -/
  resumePending : Bool
  deriving DecidableEq, Repr

/-- The transfer context (R45 to R49). -/
structure Transfer where
  /-- `xfer.dir` (R45). -/
  dir : Direction
  /-- `xfer.eoi_policy` (R45). -/
  eoiPolicy : Bool
  /-- `xfer.codec_state` (R46). -/
  codec : CodecState
  /-- `xfer.seen_first` (R47). -/
  seenFirst : Bool
  /-- `xfer.block_done` (R48). -/
  blockDone : Bool
  /-- `xfer.hold_valid` (R49). -/
  holdValid : Bool
  /-- `xfer.hold_byte` (R49). -/
  holdByte : Byte
  deriving DecidableEq, Repr

/-- The dispatcher state (R50 to R54). `cmdBuf` is the first `cmd_len` bytes of `cmd_buf`, so `cmd_len` is its length
(log entry 6). -/
structure Dispatcher where
  /-- `phase` (R50). -/
  phase : Phase
  /-- `leader_idx` (R51). -/
  leaderIdx : Fin 2
  /-- `cmd_buf[0 .. cmd_len-1]` (R52). -/
  cmdBuf : List Byte
  /-- `cur_cmd` (R53). -/
  curCmd : Option Command
  /-- `srq_latched` (R54). -/
  srqLatched : Bool
  deriving DecidableEq, Repr

/-- `cmd_len` (R52). -/
def Dispatcher.cmdLen (d : Dispatcher) : Nat := d.cmdBuf.length

/-- The bus output registers (R55, R56); `true` means CORE asserts the line (R14). -/
structure BusOut where
  /-- `atn_o`. -/
  atn : Bool
  /-- `eoi_o`. -/
  eoi : Bool
  /-- `dav_o`. -/
  dav : Bool
  /-- `nrfd_o`. -/
  nrfd : Bool
  /-- `ndac_o`. -/
  ndac : Bool
  /-- `ifc_o`. -/
  ifc : Bool
  /-- `dio_o`. -/
  dio : Byte
  /-- `dio_oe`. -/
  dioOe : Bool
  deriving DecidableEq, Repr

/-- One level of each GPIB line (R77), as a logical value (R14). -/
structure Lines where
  srq : Bool
  atn : Bool
  eoi : Bool
  dav : Bool
  nrfd : Bool
  ndac : Bool
  ifc : Bool
  ren : Bool
  dio : Byte
  deriving DecidableEq, Repr

/-- The levels on CORE's input ports (R71). With `wiredOr` CORE senses what it drives itself or another device drives
(R78, `lines` is then `ext_X`); without it `lines` is what CORE senses, whatever it drives (the weakest reading R78
allows). -/
structure Inputs where
  /-- The GPIB lines as the other devices drive them. -/
  lines : Lines
  /-- Whether the wired-OR relation of R78 holds. -/
  wiredOr : Bool
  /-- `tx_full` (R71). -/
  txFull : Bool
  /-- `host_cancel` (R71). -/
  hostCancel : Bool
  deriving DecidableEq, Repr

/-- What can happen between two foreground steps (R90, R91, R330): the two interrupt contexts, power-on reset, and the
changes the host and the bus make on CORE's inputs. -/
inductive Event where
  /-- One period of the Tick Source has passed (R220). -/
  | tick
  /-- The port `suspend_evt` fires (R340). -/
  | suspend
  /-- The port `por` fires (R61). -/
  | por
  /-- The host adds a byte to the RX queue (R72). -/
  | hostByte (b : Byte)
  /-- The environment drops what the RX queue holds (R346). -/
  | rxFlush
  /-- The input levels change. -/
  | inputs (i : Inputs)
  deriving DecidableEq, Repr

/-- One turn of the foreground: what happens just before it, in order, and then one foreground step (R16, R91). -/
abbrev Turn := List Event

/-- The foreground steps of `SrcHandshake` (R180). -/
inductive SrcStep where
  | s1 | s2 | s3 | s4 | s5 | s6 | s7 | s8
  | sf (w : Result)
  deriving DecidableEq, Repr

/-- To whom `SrcHandshake` returns: `SendCommand` (R185), step B2 with the byte to be held next, or step B4 (R190). -/
inductive SrcReturn where
  | command (release : Bool)
  | data (next : Byte)
  | last
  deriving DecidableEq, Repr

/-- What follows a sequence of `HostPut`s. -/
inductive PutReturn where
  /-- A reply: go to `Cleanup`. -/
  | cleanup
  /-- The `NAK` of an oversized line: go to `Resync` (R256). -/
  | resync
  /-- The acknowledgment of a checkpoint: the next item (R143). -/
  | item
  /-- `EncStart` of ReceiveBlock (L0, R200). -/
  | blockStart
  /-- `EncPut` of ReceiveBlock (L5, R200), with the captured EOI. -/
  | captured (eoi : Bool)
  /-- `EncEnd` of ReceiveBlock (FIN, R200), with the outcome to return. -/
  | blockEnd (w : Result)
  /-- The null byte of ReceiveByte (Y2, R210). -/
  | nullByte
  /-- The byte of ReceiveByte (Y5, R210). -/
  | rawByte
  deriving DecidableEq, Repr

/-- The steps of `BusReset` (R215). -/
inductive ResetStep where
  | z1 | z2 | z3
  deriving DecidableEq, Repr

/-- The position of the foreground (log entry 29): what R50 says is given by `phase`, `leader_idx`, `cmd_len` and the step of the
operation. Each constructor is one step, or one poll, of the spec's procedures, under the spec's label. -/
inductive Pos where
  /-- A1 and A2, which `leader_idx` tells apart (R253). -/
  | leader
  /-- A3 (R256). -/
  | body
  /-- B1, the `HostGet` of `DecNext(Live)` (R143, R190). -/
  | item
  /-- The `HostGet` of `DecNext(Drain)` (R266). -/
  | drain
  /-- The command has been parsed; `Execute` begins (R259). -/
  | ready (i : Instr)
  /-- The `HostGet` of `Resync` (R254). -/
  | resync
  /-- A sequence of `HostPut`s (R75), these bytes to go. -/
  | put (bs : List Byte) (k : PutReturn)
  /-- G2 of `BusCmd` (R281). -/
  | g2 (b : Byte) (release : Bool)
  /-- C1 of `SendCommand` (R185). -/
  | c1 (b : Byte) (release : Bool)
  /-- A step of `SrcHandshake` (R180). -/
  | src (st : SrcStep) (b : Byte) (eoi : Bool) (k : SrcReturn)
  /-- C3 of `SendCommand` and G4 of `BusCmd` (R185, R281). -/
  | c3 (r : Result) (release : Bool)
  /-- D2 of `SendBlk` (R284). -/
  | d2
  /-- D3 of `SendBlk`. -/
  | d3
  /-- B0 of `SendBlock` (R190). -/
  | b0
  /-- B3 of `SendBlock`, with the byte to hold. -/
  | b3 (b : Byte)
  /-- V2 of `RecvBlk` (R285). -/
  | v2
  /-- V3 of `RecvBlk`. -/
  | v3
  /-- L0 of `ReceiveBlock` (R200). -/
  | l0
  /-- L1. -/
  | l1
  /-- L2. -/
  | l2
  /-- The release of `ready for data` when L2 ended otherwise than `Ok`. -/
  | l2f (w : Result)
  /-- L3. -/
  | l3
  /-- L4, with the captured byte and EOI. -/
  | l4 (b : Byte) (eoi : Bool)
  /-- L6. -/
  | l6 (eoi : Bool)
  /-- L7. -/
  | l7 (eoi : Bool)
  /-- L8, with the outcome of L7. -/
  | l8 (w : Result) (eoi : Bool)
  /-- L9 and the test of L10. -/
  | l9 (eoi : Bool)
  /-- W2 of `RecvByte` (R286). -/
  | w2
  /-- W3 of `RecvByte`. -/
  | w3
  /-- Y1 of `ReceiveByte` (R210). -/
  | y1
  /-- Y2. -/
  | y2
  /-- The release of `ready for data` when Y2 ended otherwise than `Ok`. -/
  | y2f (w : Result)
  /-- Y3. -/
  | y3
  /-- Y4, with the captured byte. -/
  | y4 (b : Byte)
  /-- Y6. -/
  | y6
  /-- Y7. -/
  | y7
  /-- Y8, with the outcome of Y7. -/
  | y8 (w : Result)
  /-- Y9. -/
  | y9
  /-- A step of `BusReset`, with the byte to reply afterwards (R215, R264, R287). -/
  | busReset (st : ResetStep) (reply : Byte)
  /-- K1 of `Cleanup` (R265). -/
  | k1
  /-- K2. -/
  | k2
  /-- K3. -/
  | k3
  deriving DecidableEq, Repr

/-- The positions at which the machine waits to be given its next instruction. -/
def Pos.isFetch : Pos → Bool
  | .leader | .body | .item | .drain | .ready _ => true
  | _ => false

/-- The state: CORE's six groups (R20), its position, and its environment. -/
structure State where
  /-- The configuration record, fixed for the machine (R11). -/
  cfg : Cfg
  /-- The session state register file. -/
  sess : Session
  /-- The timeout policy registers. -/
  tmo : Timers
  /-- The abort registers. -/
  abt : Abort
  /-- The transfer context. -/
  xfer : Transfer
  /-- The dispatcher state. -/
  disp : Dispatcher
  /-- The bus output registers. -/
  out : BusOut
  /-- The position of the foreground. -/
  pos : Pos
  /-- The host RX queue, head first (R72). -/
  rx : List Byte
  /-- Every byte pushed to the host TX channel, in order (R75). -/
  tx : List Byte
  /-- The input levels. -/
  inp : Inputs
  /-- The turns of the foreground still to come (log entry 2). -/
  sched : List Turn
  deriving DecidableEq, Repr

/-- The faults of CORE: none. R320: "every input sequence leads to a next state"; what an ISA would trap is a defined
reply and a defined next state. No meaning raises a fault. -/
inductive Fault where
  deriving DecidableEq, Repr

/-- Why an instruction has no meaning. -/
inductive Refusal where
  /-- An instruction that has no meaning yet; raised by `exec`'s arm for it and by nothing else (safe). No arm raises
  it now. -/
  | notModelled (mnemonic : String)
  deriving DecidableEq, Repr

/-- The levels of an environment in which nobody else drives the bus, the TX queue has room and no cancel is held. -/
def Lines.released : Lines where
  srq := false
  atn := false
  eoi := false
  dav := false
  nrfd := false
  ndac := false
  ifc := false
  ren := false
  dio := 0#8

/-- The quiet inputs the reset state is given (environment, not CORE: R20; log entry 30). -/
def Inputs.quiet : Inputs where
  lines := Lines.released
  wiredOr := true
  txFull := false
  hostCancel := false

/-- Power-on reset under a configuration and in an environment: the table of R62. The elements it leaves unspecified
(`xfer.dir`, `xfer.eoi_policy`, `xfer.hold_byte`) hold the values of log entry 5, which no rule reads (R371). -/
def State.powerOnReset (c : Cfg) (rx tx : List Byte) (i : Inputs) (ts : List Turn) : State where
  cfg := c
  sess :=
    { role := .idle, renAsserted := c.resetRen, writeMode := c.resetWriteMode, srqMonitor := c.resetSrqMonitor,
      debugMode := false, powered := false }
  tmo :=
    { byteTimeout := c.resetByteTimeout, firstByteTimeout := c.resetFirstByteTimeout,
      totalTimeout := c.resetTotalTimeout, byteCtr := 0#16, totalCtr := 0#16, useFirst := false, opActive := false,
      tickArmed := true }
  abt := { timedOut := false, suspended := false, failReason := none, resumePending := false }
  xfer :=
    { dir := .send, eoiPolicy := false, codec := .normal, seenFirst := false, blockDone := false, holdValid := false,
      holdByte := 0#8 }
  disp := { phase := .awaitLeader, leaderIdx := 0, cmdBuf := [], curCmd := none, srqLatched := false }
  out :=
    { atn := false, eoi := false, dav := false, nrfd := false, ndac := false, ifc := false, dio := 0#8,
      dioOe := false }
  pos := .leader
  rx := rx
  tx := tx
  inp := i
  sched := ts

/-- The machine right after power-on reset (R61, R62), with the default configuration, empty host channels, quiet
inputs and nothing scheduled. -/
def State.reset : State := State.powerOnReset Cfg.default [] [] Inputs.quiet []

end Sys2Proof.Machine
end

