-- ==== Sys2Proof/Machine/Operands.lean ====
section
/-! DEFINITION. Operands: the values decimal and choice operands store (R121, R122), the identification string, the
sensed lines (R78, R79) and the status byte (R309). -/

namespace Sys2Proof.Machine

/-! ## Decimal operands -/

/-- The operand of `e`: a value 0 to 7 (R122, R300); `none` makes the command a syntax error (R316). -/
def writeModeOperand (d : Digits) : Option (BitVec 3) :=
  match d.parse with
  | some v => if v ≤ 7 then some (BitVec.ofNat 3 v) else none
  | none => none

/-- The operand of `t`, reduced modulo `2^BYTE_TIMEOUT_BITS` (R111 row 9, R122). -/
def byteTimeoutOperand (c : Cfg) (d : Digits) : Option Half :=
  match d.parse with
  | some v => some (BitVec.ofNat 16 (v % 2 ^ c.byteTimeoutWidth.bits))
  | none => none

/-- The operand of `T` and `f`, reduced modulo `2^16` (R111 rows 10 and 11, R122). -/
def wideTimeoutOperand (d : Digits) : Option Half :=
  match d.parse with
  | some v => some (BitVec.ofNat 16 (v % 2 ^ 16))
  | none => none

/-! ## The outputs and the sensed lines -/

/-- `ren_o = powered AND ren_asserted`, at every instant (R58). -/
def State.renOut (s : State) : Bool := s.sess.powered && s.sess.renAsserted

/-- A line as CORE senses it: what others drive, and under the wired-OR relation also what CORE drives (R78). -/
def Inputs.senseLine (i : Inputs) (ext out : Bool) : Bool := ext || (i.wiredOr && out)

/-- `srq_i`; CORE has no SRQ output (R57). -/
def State.srqIn (s : State) : Bool := s.inp.lines.srq
/-- `atn_i`. -/
def State.atnIn (s : State) : Bool := s.inp.senseLine s.inp.lines.atn s.out.atn
/-- `eoi_i`. -/
def State.eoiIn (s : State) : Bool := s.inp.senseLine s.inp.lines.eoi s.out.eoi
/-- `dav_i`. -/
def State.davIn (s : State) : Bool := s.inp.senseLine s.inp.lines.dav s.out.dav
/-- `nrfd_i`. -/
def State.nrfdIn (s : State) : Bool := s.inp.senseLine s.inp.lines.nrfd s.out.nrfd
/-- `ndac_i`. -/
def State.ndacIn (s : State) : Bool := s.inp.senseLine s.inp.lines.ndac s.out.ndac
/-- `ifc_i`. -/
def State.ifcIn (s : State) : Bool := s.inp.senseLine s.inp.lines.ifc s.out.ifc
/-- `ren_i`. -/
def State.renIn (s : State) : Bool := s.inp.senseLine s.inp.lines.ren s.renOut
/-- `dio_i`: bit by bit the same relation; CORE asserts no data line while `dio_oe = 0` (R56). -/
def State.dioIn (s : State) : Byte :=
  if s.inp.wiredOr && s.out.dioOe then s.inp.lines.dio ||| s.out.dio else s.inp.lines.dio

/-- The byte with bit `k` equal to `b` and every other bit 0 (R13). -/
def bitAt (b : Bool) (k : Nat) : Byte := if b then 1#8 <<< k else 0#8

/-- The status byte (R129, R309): each bit is the electrical level of its line, 0 when asserted. -/
def State.statusByte (s : State) : Byte :=
  bitAt (!s.srqIn) 7 ||| bitAt (!s.atnIn) 6 ||| bitAt (!s.eoiIn) 5 ||| bitAt (!s.davIn) 4
    ||| bitAt (!s.nrfdIn) 3 ||| bitAt (!s.ndacIn) 2 ||| bitAt (!s.ifcIn) 1 ||| bitAt (!s.renIn) 0

end Sys2Proof.Machine
end

