-- ==== Sys2Proof/Machine/Flags.lean ====
section
/-! DEFINITION. Everything that sets or clears a flag or a counter: the tick (R222), the foreground's timer groups
(R224 to R227), the suspend event and the resume (R340, R342), the failure stamp (R321). -/

namespace Sys2Proof.Machine

/-! ## The tick (R222) -/

/-- The first group of R222: the threshold `byte_ctr` is held against at this tick, `none` when that bound is disabled
(R223 (a) to (c)). -/
def Timers.byteBound (t : Timers) : Option Half :=
  if t.useFirst = true ∧ t.firstByteTimeout ≠ 0#16 then some t.firstByteTimeout
  else if t.byteTimeout ≠ 0#16 then some t.byteTimeout
  else none

/-- One counter of R222 against its threshold: the counter after the tick, and whether it has crossed. -/
def countAgainst (bound : Option Half) (ctr : Half) : Half × Bool :=
  match bound with
  | some n => (ctr + 1#16, decide (n ≤ ctr + 1#16))
  | none => (ctr, false)

/-- The threshold of the second group of R222. -/
def Timers.totalBound (t : Timers) : Option Half := if t.totalTimeout ≠ 0#16 then some t.totalTimeout else none

/-- `Tick()` (R222), delivered only while `tick_armed = 1` (R220). -/
def tick (s : State) : State :=
  if s.tmo.tickArmed && s.tmo.opActive then
    let b := countAgainst s.tmo.byteBound s.tmo.byteCtr
    let t := countAgainst s.tmo.totalBound s.tmo.totalCtr
    { s with
      tmo := { s.tmo with byteCtr := b.1, totalCtr := t.1 }
      abt := { s.abt with timedOut := s.abt.timedOut || b.2 || t.2 } }
  else s

/-! ## The foreground's timer groups -/

/-- `BeginOp()` (R224). -/
def State.beginOp (s : State) : State :=
  { s with tmo := { s.tmo with byteCtr := 0#16, totalCtr := 0#16, useFirst := true, opActive := true } }

/-- `ByteDone()` (R225). -/
def State.byteDone (s : State) : State :=
  { s with tmo := { s.tmo with byteCtr := 0#16, useFirst := false } }

/-- `EndOp()` (R227). -/
def State.endOp (s : State) : State :=
  { s with tmo := { s.tmo with opActive := false, useFirst := false, byteCtr := 0#16, totalCtr := 0#16 } }

/-! ## Suspend and resume -/

/-- The suspend event (R340). -/
def suspendEvent (s : State) : State :=
  { s with
    abt := { s.abt with suspended := true, resumePending := true }
    tmo := { s.tmo with tickArmed := false } }

/-- `Resume()` when one is pending (R342): part of the `HostGet` that takes a byte. -/
def State.resumed (s : State) : State :=
  if s.abt.resumePending then
    { s with
      tmo := { s.tmo with tickArmed := true, byteCtr := 0#16, totalCtr := 0#16 }
      abt := { s.abt with resumePending := false } }
  else s

/-! ## The failure stamp -/

/-- `fail_reason <- r` (R321). -/
def State.stamp (s : State) (r : Option Reason) : State := { s with abt := { s.abt with failReason := r } }

end Sys2Proof.Machine
end

