-- ==== Sys2Proof/Machine/Ops.lean ====
section
/-! DEFINITION. The shared operations: moving the position, the two host primitives (R73, R75), the wait (R171), the
line and role primitives (R174 to R176), defaults and power (R60, R289), and the way a failure is taken and left, which
stands in place of exception entry and return (R338, R339): `finish` (R264), the steps of `Cleanup` (R265) and the
cycle start (R251). -/

namespace Sys2Proof.Machine

/-! ## Position, phase, parts -/

/-- Move the foreground to `p`. -/
def State.goto (s : State) (p : Pos) : State := { s with pos := p }

/-- `phase <- p`. -/
def State.setPhase (s : State) (p : Phase) : State := { s with disp := { s.disp with phase := p } }

/-- `role <- r`. -/
def State.setRole (s : State) (r : Role) : State := { s with sess := { s.sess with role := r } }

/-- Rewrite the bus output registers. -/
def State.drive (s : State) (f : BusOut → BusOut) : State := { s with out := f s.out }

/-- Rewrite the transfer context. -/
def State.setXfer (s : State) (f : Transfer → Transfer) : State := { s with xfer := f s.xfer }

/-! ## The host channels -/

/-- `tx_data <- b; tx_push` (R75). -/
def State.push (s : State) (b : Byte) : State := { s with tx := s.tx ++ [b] }

/-- One iteration of `HostPut(b)` (R75). -/
inductive PutPoll where
  | abort
  | full
  | ok (s : State)

/-- `HostPut(b)`, one iteration (R75). -/
def hostPut (b : Byte) (s : State) : PutPoll :=
  if s.abt.suspended then .abort else if s.inp.txFull then .full else .ok (s.push b)

/-- `SrqPoll()` (R335). -/
def srqPoll (s : State) : State :=
  if s.sess.powered && s.sess.srqMonitor then
    if !s.srqIn then { s with disp := { s.disp with srqLatched := false } }
    else if !s.disp.srqLatched && !s.inp.txFull then
      { s.push s.cfg.srqNotify with disp := { s.disp with srqLatched := true } }
    else s
  else s

/-- One iteration of `HostGet()` (R73). -/
inductive GetPoll where
  | abort
  | empty (s : State)
  | byte (b : Byte) (s : State)

/-- `HostGet()`, one iteration (R73): the Suspended flag, then the queue, then the service-request poll. -/
def hostGet (s : State) : GetPoll :=
  if s.abt.suspended then .abort
  else
    match s.rx with
    | b :: rest => .byte b (State.resumed { s with rx := rest })
    | [] => .empty (if s.disp.phase = .awaitLeader ∧ s.disp.leaderIdx = 0 then srqPoll s else s)

/-! ## The wait (R171) -/

/-- One iteration of `Wait(cond, reason, cancelable)` (R171), the four tests in its order: `none` to poll again, or
the outcome and the state with `fail_reason` stamped. -/
def wait (cond : Bool) (reason : Reason) (cancelable : Bool) (s : State) : Option (Result × State) :=
  if cond then some (.ok, s)
  else if s.abt.suspended then some (.suspended, s.stamp (some reason))
  else if s.abt.timedOut then some (.failed reason, s.stamp (some reason))
  else if cancelable && s.inp.hostCancel then some (.cancelled, s)
  else none

/-- Poll a wait; go on with its outcome, or stay. -/
def polling (w : Option (Result × State)) (s : State) (k : Result → State → State) : State :=
  match w with
  | some (r, s') => k r s'
  | none => s

/-! ## Lines and roles -/

/-- `AssumeTalker()` (R174). -/
def State.assumeTalker (s : State) : State :=
  (s.drive fun o => { o with nrfd := false, ndac := false }).setRole .talker

/-- `AssumeListener()` (R175). -/
def State.assumeListener (s : State) : State :=
  (s.drive fun o => { o with dav := false, eoi := false, dioOe := false, nrfd := true, ndac := true }).setRole .listener

/-- `ReleaseBus()` (R176). -/
def State.releaseBus (s : State) : State :=
  (s.drive fun o =>
    { o with dav := false, eoi := false, nrfd := false, ndac := false, dioOe := false, atn := false }).setRole .idle

/-- The role test before an operation that sources bytes: G1, D1 (R281, R284). -/
def State.needTalker (s : State) : State := if s.sess.role = .talker then s else s.assumeTalker

/-- The role test before an operation that accepts bytes: V1, W1 (R285, R286). -/
def State.needListener (s : State) : State := if s.sess.role = .listener then s else s.assumeListener

/-! ## Defaults and power -/

/-- `LoadDefaults` (R60). -/
def State.loadDefaults (s : State) : State :=
  { s with
    sess :=
      { s.sess with
        role := .idle, renAsserted := s.cfg.resetRen, writeMode := s.cfg.resetWriteMode
        srqMonitor := s.cfg.resetSrqMonitor, debugMode := false }
    tmo :=
      { s.tmo with
        byteTimeout := s.cfg.resetByteTimeout, firstByteTimeout := s.cfg.resetFirstByteTimeout
        totalTimeout := s.cfg.resetTotalTimeout, byteCtr := 0#16, totalCtr := 0#16, useFirst := false
        opActive := false }
    disp := { s.disp with srqLatched := false }
    out :=
      { s.out with
        atn := false, eoi := false, dav := false, nrfd := false, ndac := false, ifc := false, dioOe := false } }

/-- `powered <- v`. -/
def State.setPowered (s : State) (v : Bool) : State := { s with sess := { s.sess with powered := v } }

/-- `PowerOn()` (R289). -/
def State.powerOn (s : State) : State := (s.setPowered true).setRole .idle

/-- `LoadDefaults(); powered <- 0`, the atomic group of `O` (R288). -/
def State.powerOff (s : State) : State := s.loadDefaults.setPowered false

/-- The port `por` (R61): CORE's state becomes the reset state; the configuration and the environment stay. -/
def State.por (s : State) : State := State.powerOnReset s.cfg s.rx s.tx s.inp s.sched

/-! ## The end of a command: how a failure is taken, and the return (R338, R339) -/

/-- `phase <- Cleanup` (R250), then K1. -/
def State.toCleanup (s : State) : State := (s.setPhase .cleanup).goto .k1

/-- What follows a completed or abandoned sequence of `HostPut`s is in `putDone` (Machine/Engine.lean); this begins
one. An empty sequence sends nothing and makes no poll. -/
def State.replyWith (s : State) (bs : List Byte) : State :=
  match bs with
  | [] => s.toCleanup
  | b :: rest => s.goto (.put (b :: rest) .cleanup)

/-- `Code(outcome)` (R263). -/
def Result.code (c : Cfg) : Result → Option Byte
  | .ok => some c.ack
  | .failed .notReady => some errNotReady
  | .failed .notAccepted => some errNotAccepted
  | .failed .davNotReleased => some errDavNotReleased
  | .failed .noListener => some errNoListener
  | .failed .noData => some errNoData
  | .failed .frameError => some c.nak
  | .suspended => none
  | .cancelled => some c.ack

/-- Whether a bus reset follows the outcome (R264, R326). -/
def Result.resetsBus : Result → Bool
  | .failed .notReady | .failed .notAccepted | .failed .noListener | .failed .davNotReleased => true
  | .failed .noData | .failed .frameError | .ok | .suspended | .cancelled => false

/-- `Finish(outcome)` (R264): the one way an engine operation, failed or not, is left: the bus reset first, then the
reply, then `Cleanup`. -/
def finish (r : Result) (s : State) : State :=
  match r.code s.cfg with
  | none => s.toCleanup
  | some b => if r.resetsBus then s.goto (.busReset .z1 b) else s.replyWith [b]

/-- `CycleStart()` (R251). -/
def State.cycleStart (s : State) : State :=
  { s with
    abt := { s.abt with timedOut := false, suspended := false, failReason := none }
    disp := { s.disp with cmdBuf := [], leaderIdx := 0, curCmd := none, phase := .awaitLeader }
    pos := .leader }

/-- `SuspendCleanup()` (R343). -/
def State.suspendCleanup (s : State) : State :=
  s.powerOff.setXfer fun x =>
    { x with codec := .normal, seenFirst := false, blockDone := false, holdValid := false }

/-- K1 of `Cleanup` (R265). -/
def cleanupK1 (s : State) : State := s.endOp.goto .k2

/-- K2 of `Cleanup` (R265): whether to drain. -/
def cleanupK2 (s : State) : State :=
  if s.disp.curCmd = some .sendBlk ∧ s.xfer.blockDone = false ∧ s.abt.suspended = false then s.goto .drain
  else s.goto .k3

/-- K3 of `Cleanup` (R265, R268), one atomic step. -/
def cleanupK3 (s : State) : State :=
  (if s.abt.suspended then s.suspendCleanup else s).cycleStart

/-- A step of `BusReset` (R215); after the last the reply (R264, R287). -/
def busResetStep (st : ResetStep) (reply : Byte) (s : State) : State :=
  match st with
  | .z1 => s.releaseBus.goto (.busReset .z2 reply)
  | .z2 => (s.drive fun o => { o with ifc := true }).goto (.busReset .z3 reply)
  | .z3 => (s.drive fun o => { o with ifc := false }).replyWith [reply]

end Sys2Proof.Machine
end

