-- ==== Sys2Proof/Machine/Env.lean ====
section
/-! DEFINITION. What acts on CORE between two foreground steps (R90, R91, R330). -/

namespace Sys2Proof.Machine

/-- One event, atomic (R88). -/
def Event.act : Event → State → State
  | .tick, s => Machine.tick s
  | .suspend, s => suspendEvent s
  | .por, s => s.por
  | .hostByte b, s => { s with rx := s.rx ++ [b] }
  | .rxFlush, s => { s with rx := [] }
  | .inputs i, s => { s with inp := i }

/-- The events of one turn, in order. -/
def State.turn (s : State) (t : Turn) : State := t.foldl (fun s e => e.act s) s

end Sys2Proof.Machine
end

