-- ==== Sys2Proof/Machine/Codec.lean ====
section
/-! DEFINITION. The framing codec: `DecStep` (R141), `DecInit` (R142), what an item does to a block in the two modes of
`DecNext` (R143), `EncPut` (R151), and `DecodeAll` and `Encode` (R148, R153), in which the codec's laws are stated. -/

namespace Sys2Proof.Machine

/-- The tokens of `DecStep` (R141). -/
inductive Token where
  | more
  | data (b : Byte)
  | finish
  | checkpoint
  | violation
  deriving DecidableEq, Repr

/-- `DecStep(state, seen_first, b)` (R141): the new state, the new `seen_first` and the token. -/
def decStep (c : Cfg) (st : CodecState) (seen : Bool) (b : Byte) : CodecState × Bool × Token :=
  match st with
  | .normal => if b = c.escape then (.sawEscape, seen, .more) else (.normal, true, .data b)
  | .sawEscape =>
    if b = c.escape then (.normal, true, .data c.escape)
    else if b = c.blockEnd then (.normal, seen, .finish)
    else if b = c.checkpoint then
      if seen then (.normal, true, .checkpoint) else (.normal, false, .violation)
    else (.normal, seen, .violation)

/-- `DecInit` (R142). -/
def Transfer.decInit (x : Transfer) : Transfer :=
  { x with codec := .normal, seenFirst := false, blockDone := false, holdValid := false, dir := .send }

/-- The bytes `EncPut(b)` sends (R151). -/
def encPut (c : Cfg) (b : Byte) : List Byte := if b = c.escape then [c.escape, c.escape] else [b]

/-- The bytes `EncStart()` sends (R150). -/
def encStart (c : Cfg) : List Byte := [c.escape, c.blockStart]

/-- The bytes `EncEnd()` sends (R150). -/
def encEnd (c : Cfg) : List Byte := [c.escape, c.blockEnd]

/-- The escaped payload, without markers (R151). -/
def encPayload (c : Cfg) (p : List Byte) : List Byte := p.flatMap (encPut c)

/-- `Encode(p)` (R153). -/
def encodeBlock (c : Cfg) (p : List Byte) : List Byte := encStart c ++ encPayload c p ++ encEnd c

/-- The results of `DecodeAll` (R148). -/
inductive BlockResult where
  | ok (payload rest : List Byte)
  | frameError (payload rest : List Byte)
  | incomplete (payload : List Byte)
  deriving DecidableEq, Repr

/-- Put a byte in front of the payload of a result. -/
def BlockResult.cons (b : Byte) : BlockResult → BlockResult
  | .ok p r => .ok (b :: p) r
  | .frameError p r => .frameError (b :: p) r
  | .incomplete p => .incomplete (b :: p)

/-- `DecodeAll` from a codec state (R148); the payload decoded before an error is kept, as the vectors show it. -/
def decodeAllFrom (c : Cfg) : CodecState → Bool → List Byte → BlockResult
  | _, _, [] => .incomplete []
  | st, seen, b :: bs =>
    match decStep c st seen b with
    | (st', seen', .more) => decodeAllFrom c st' seen' bs
    | (st', seen', .checkpoint) => decodeAllFrom c st' seen' bs
    | (st', seen', .data x) => (decodeAllFrom c st' seen' bs).cons x
    | (_, _, .finish) => .ok [] bs
    | (_, _, .violation) => .frameError [] bs

/-- `DecodeAll(bytes)` (R148). -/
def decodeAll (c : Cfg) (bs : List Byte) : BlockResult := decodeAllFrom c .normal false bs

end Sys2Proof.Machine
end

