-- ==== Sys2Proof/Machine/Handshake.lean ====
section
/-! DEFINITION. The source side of the handshake engine: `SrcHandshake` (R180), `SendCommand` (R185) with the lines of
`BusCmd` around it (R281), `SendBlock` (R190) with the lines of `SendBlk` around it (R284), and what a decoded token
does in the two modes of `DecNext` (R143). -/

namespace Sys2Proof.Machine

/-- Where `SrcHandshake` returns `Ok` to. -/
def srcReturned (k : SrcReturn) (s : State) : State :=
  match k with
  | .command release => s.goto (.c3 .ok release)
  | .data next => s.goto (.b3 next)
  | .last => finish .ok (s.setXfer fun x => { x with holdValid := false })

/-- Where `SrcHandshake` returns a failure to: C3 of `SendCommand`, or `SendBlock`'s return (B2, or B4, which drops the
held byte first). -/
def srcFailed (w : Result) (k : SrcReturn) (s : State) : State :=
  match k with
  | .command release => s.goto (.c3 w release)
  | .data _ => finish w s
  | .last => finish w (s.setXfer fun x => { x with holdValid := false })

/-- The outcome of a wait of `SrcHandshake`: the next step, or SF. -/
def srcWaited (next : SrcStep) (b : Byte) (eoi : Bool) (k : SrcReturn) (w : Result) (s : State) : State :=
  match w with
  | .ok => s.goto (.src next b eoi k)
  | w => s.goto (.src (.sf w) b eoi k)

/-- One foreground step of `SrcHandshake(b, with_eoi)` (R180). -/
def srcStep (st : SrcStep) (b : Byte) (eoi : Bool) (k : SrcReturn) (s : State) : State :=
  match st with
  | .s1 => (s.drive fun o => { o with dio := b, dioOe := true }).goto (.src .s2 b eoi k)
  | .s2 => polling (wait (s.nrfdIn || s.ndacIn) .noListener false s) s (srcWaited .s3 b eoi k)
  | .s3 => polling (wait (!s.nrfdIn) .notReady false s) s (srcWaited .s4 b eoi k)
  | .s4 => (if eoi then s.drive fun o => { o with eoi := true } else s).goto (.src .s5 b eoi k)
  | .s5 => (s.drive fun o => { o with dav := true }).goto (.src .s6 b eoi k)
  | .s6 => polling (wait (!s.ndacIn) .notAccepted false s) s (srcWaited .s7 b eoi k)
  | .s7 => (s.drive fun o => { o with dav := false, eoi := false }).goto (.src .s8 b eoi k)
  | .s8 => srcReturned k s.byteDone
  | .sf w => srcFailed w k (s.drive fun o => { o with dav := false, eoi := false })

/-! ## `BusCmd` and `SendCommand` -/

/-- G2 (R281): `BeginOp(); phase <- Transfer`. -/
def busCmdG2 (b : Byte) (release : Bool) (s : State) : State :=
  (s.beginOp.setPhase .transfer).goto (.c1 b release)

/-- C1 (R185): `atn_o <- 1`. -/
def sendCommandC1 (b : Byte) (release : Bool) (s : State) : State :=
  (s.drive fun o => { o with atn := true }).goto (.src .s1 b false (.command release))

/-- C3 (R185) and G4 (R281), then G5: attention is released after a failure, and after a success of `C`. -/
def sendCommandC3 (r : Result) (release : Bool) (s : State) : State :=
  finish r (if r = .ok ∧ release = false then s else s.drive fun o => { o with atn := false })

/-! ## `SendBlk` and `SendBlock` -/

/-- D2 (R284): attention is released before data bytes travel. -/
def sendBlkD2 (s : State) : State := (s.drive fun o => { o with atn := false }).goto .d3

/-- D3 (R284): `BeginOp(); phase <- Transfer`. -/
def sendBlkD3 (s : State) : State := (s.beginOp.setPhase .transfer).goto .b0

/-- D4's argument and B0 (R284, R190): `eoi_enabled = (write_mode < 4)`; `DecInit()`. -/
def sendBlockB0 (s : State) : State :=
  (s.setXfer fun x => { x.decInit with eoiPolicy := decide (s.sess.writeMode.toNat < 4) }).goto .item

/-- B2 (R190): the held byte, if any, is sent without EOI; then the new byte is held. -/
def sendBlockB2 (b : Byte) (s : State) : State :=
  if s.xfer.holdValid then s.goto (.src .s1 s.xfer.holdByte false (.data b)) else s.goto (.b3 b)

/-- B3 (R190). -/
def sendBlockB3 (b : Byte) (s : State) : State :=
  (s.setXfer fun x => { x with holdByte := b, holdValid := true }).goto .item

/-- B4 (R190): the last byte, with EOI if the policy says so; an empty block is `Ok` at once. -/
def sendBlockB4 (s : State) : State :=
  if s.xfer.holdValid then s.goto (.src .s1 s.xfer.holdByte s.xfer.eoiPolicy .last) else finish .ok s

/-- The two modes of `DecNext` (R143). -/
inductive DecMode where
  | live
  | drain
  deriving DecidableEq, Repr

/-- The mode in which the next item of the block is decoded: `Drain` in `Cleanup`'s drain, else `Live` (R143, R266). -/
def State.decMode (s : State) : DecMode := if s.pos = .drain then .drain else .live

/-- What a token does: `DecNext` (R143) with its caller, `SendBlock` (R190) in `Live` and `Drain` (R266) in `Drain`.
The codec state and `seen_first` have been written. -/
def onToken (m : DecMode) (t : Token) (s : State) : State :=
  match t, m with
  | .more, .live => s.goto .item
  | .more, .drain => s.goto .drain
  | .data b, .live => sendBlockB2 b s
  | .data _, .drain => s.goto .drain
  | .finish, .live => sendBlockB4 (s.setXfer fun x => { x with blockDone := true })
  | .finish, .drain => (s.setXfer fun x => { x with blockDone := true }).goto .k3
  | .checkpoint, .live => s.goto (.put [s.cfg.checkpointAck] .item)
  | .checkpoint, .drain => s.goto .drain
  | .violation, .live =>
    finish (.failed .frameError) ((s.setXfer fun x => { x with blockDone := true }).stamp (some .frameError))
  | .violation, .drain => (s.setXfer fun x => { x with blockDone := true }).goto .k3

/-- `DecStep` on a byte in a codec state, its results written, and what its token does (R143). -/
def decodeByte (st : CodecState) (b : Byte) (s : State) : State :=
  let r := decStep s.cfg st s.xfer.seenFirst b
  onToken s.decMode r.2.2 (s.setXfer fun x => { x with codec := r.1, seenFirst := r.2.1 })

end Sys2Proof.Machine
end

