-- ==== Sys2Proof/Machine/Receive.lean ====
section
/-! DEFINITION. The acceptor side of the handshake engine: `ReceiveBlock` (R200) with the lines of `RecvBlk` around it
(R285), and `ReceiveByte` (R210) with the lines of `RecvByte` around it (R286). -/

namespace Sys2Proof.Machine

/-! ## `RecvBlk` and `ReceiveBlock` -/

/-- V2 (R285): attention is released. -/
def recvBlkV2 (s : State) : State := (s.drive fun o => { o with atn := false }).goto .v3

/-- V3 (R285): `BeginOp(); phase <- Transfer`. -/
def recvBlkV3 (s : State) : State := (s.beginOp.setPhase .transfer).goto .l0

/-- ReceiveBlock's return (R200): `Cancelled` becomes `Ok`; then V5. -/
def receiveReturned (w : Result) (s : State) : State := finish (if w = .cancelled then .ok else w) s

/-- FIN (R200): the block terminator to the host unless suspended. -/
def receiveFin (w : Result) (s : State) : State :=
  if w = .suspended then receiveReturned w s else s.goto (.put (encEnd s.cfg) (.blockEnd w))

/-- L0 (R200): the direction, and `EncStart()`. -/
def receiveL0 (s : State) : State :=
  (s.setXfer fun x => { x with dir := .receive }).goto (.put (encStart s.cfg) .blockStart)

/-- L1 (R200): ready for data. -/
def receiveL1 (s : State) : State := (s.drive fun o => { o with nrfd := false }).goto .l2

/-- L2 (R200): the wait for data-valid, the one wait that the host can cancel (R203). -/
def receiveL2 (s : State) : State :=
  polling (wait s.davIn .noData true s) s fun w s => if w = .ok then s.goto .l3 else s.goto (.l2f w)

/-- L2 ended otherwise than `Ok`: `nrfd_o <- 1`, then FIN. -/
def receiveL2Failed (w : Result) (s : State) : State := receiveFin w (s.drive fun o => { o with nrfd := true })

/-- L3 (R200, R201): the byte and EOI captured at one instant. -/
def receiveL3 (s : State) : State := s.goto (.l4 s.dioIn s.eoiIn)

/-- L4 (R200), then L5: not ready; the byte goes to the host, escape doubled. -/
def receiveL4 (b : Byte) (eoi : Bool) (s : State) : State :=
  (s.drive fun o => { o with nrfd := true }).goto (.put (encPut s.cfg b) (.captured eoi))

/-- L6 (R200): data accepted. -/
def receiveL6 (eoi : Bool) (s : State) : State := (s.drive fun o => { o with ndac := false }).goto (.l7 eoi)

/-- L7 (R200): the wait for the talker to release data-valid. -/
def receiveL7 (eoi : Bool) (s : State) : State :=
  polling (wait (!s.davIn) .davNotReleased false s) s fun w s => s.goto (.l8 w eoi)

/-- L8 (R200). -/
def receiveL8 (w : Result) (eoi : Bool) (s : State) : State :=
  let s := s.drive fun o => { o with ndac := true }
  if w = .ok then s.goto (.l9 eoi) else receiveFin w s

/-- L9 and L10 (R200, R202): the loop ends after the byte that carried EOI. -/
def receiveL9 (eoi : Bool) (s : State) : State :=
  if eoi then receiveFin .ok s.byteDone else s.byteDone.goto .l1

/-! ## `RecvByte` and `ReceiveByte` -/

/-- W2 (R286): attention is released. -/
def recvByteW2 (s : State) : State := (s.drive fun o => { o with atn := false }).goto .w3

/-- W3 (R286): `BeginOp(); phase <- Transfer`. -/
def recvByteW3 (s : State) : State := (s.beginOp.setPhase .transfer).goto .y1

/-- Y1 (R210): ready for data. -/
def receiveByteY1 (s : State) : State := (s.drive fun o => { o with nrfd := false }).goto .y2

/-- Y2 (R210): the wait for data-valid; not cancelable. -/
def receiveByteY2 (s : State) : State :=
  polling (wait s.davIn .noData false s) s fun w s => if w = .ok then s.goto .y3 else s.goto (.y2f w)

/-- Y2 ended otherwise than `Ok` (R210): suspended returns; a timeout reports the null byte. -/
def receiveByteY2Failed (w : Result) (s : State) : State :=
  let s := s.drive fun o => { o with nrfd := true }
  if w = .suspended then finish .suspended s else s.goto (.put [s.cfg.nullByte] .nullByte)

/-- Y3 (R210). -/
def receiveByteY3 (s : State) : State := s.goto (.y4 s.dioIn)

/-- Y4 (R210), then Y5: the byte goes to the host as it is. -/
def receiveByteY4 (b : Byte) (s : State) : State :=
  (s.drive fun o => { o with nrfd := true }).goto (.put [b] .rawByte)

/-- Y6 (R210). -/
def receiveByteY6 (s : State) : State := (s.drive fun o => { o with ndac := false }).goto .y7

/-- Y7 (R210). -/
def receiveByteY7 (s : State) : State :=
  polling (wait (!s.davIn) .davNotReleased false s) s fun w s => s.goto (.y8 w)

/-- Y8 (R210). -/
def receiveByteY8 (w : Result) (s : State) : State :=
  let s := s.drive fun o => { o with ndac := true }
  if w = .ok then s.goto .y9 else finish w s

/-- Y9 (R210). -/
def receiveByteY9 (s : State) : State := finish .ok s.byteDone

end Sys2Proof.Machine
end

