-- ==== Sys2Proof/Machine/Engine.lean ====
section
/-! DEFINITION. The foreground: one step at each position (`fg`), and the run of an instruction through its turns. -/

namespace Sys2Proof.Machine

/-- What follows a sequence of `HostPut`s that completed (`sent`) or was cut by `Abort`. -/
def putDone (k : PutReturn) (sent : Bool) (s : State) : State :=
  match k with
  | .cleanup => s.toCleanup
  | .resync => s.goto .resync
  | .item => s.goto .item
  | .blockStart => if sent then s.goto .l1 else receiveFin .suspended s
  | .captured eoi => if sent then s.goto (.l6 eoi) else receiveFin .suspended s
  | .blockEnd w => receiveReturned w s
  | .nullByte => finish .ok (s.stamp none)
  | .rawByte => if sent then s.goto .y6 else finish .suspended s

/-- One poll of a sequence of `HostPut`s (R75): "If any `HostPut` returns `Abort` the rest of the sequence is skipped"
(R150). -/
def putStep (bs : List Byte) (k : PutReturn) (s : State) : State :=
  match bs with
  | [] => putDone k true s
  | b :: rest =>
    match hostPut b s with
    | .abort => putDone k false s
    | .full => s
    | .ok s' => if rest = [] then putDone k true s' else s'.goto (.put rest k)

/-- One poll of `Resync` (R254): bytes through the next `TERM` are discarded. -/
def resyncStep (s : State) : State :=
  match hostGet s with
  | .abort => s.toCleanup
  | .empty s' => s'
  | .byte b s' => if b = s'.cfg.term then s'.toCleanup else s'

/-- One foreground step at the state's position (R16). At a position where the next instruction is awaited the
foreground does nothing here: `fetch` and `exec` act there. -/
def fg (s : State) : State :=
  match s.pos with
  | .leader | .body | .item | .drain | .ready _ => s
  | .resync => resyncStep s
  | .put bs k => putStep bs k s
  | .g2 b release => busCmdG2 b release s
  | .c1 b release => sendCommandC1 b release s
  | .src st b eoi k => srcStep st b eoi k s
  | .c3 r release => sendCommandC3 r release s
  | .d2 => sendBlkD2 s
  | .d3 => sendBlkD3 s
  | .b0 => sendBlockB0 s
  | .b3 b => sendBlockB3 b s
  | .v2 => recvBlkV2 s
  | .v3 => recvBlkV3 s
  | .l0 => receiveL0 s
  | .l1 => receiveL1 s
  | .l2 => receiveL2 s
  | .l2f w => receiveL2Failed w s
  | .l3 => receiveL3 s
  | .l4 b eoi => receiveL4 b eoi s
  | .l6 eoi => receiveL6 eoi s
  | .l7 eoi => receiveL7 eoi s
  | .l8 w eoi => receiveL8 w eoi s
  | .l9 eoi => receiveL9 eoi s
  | .w2 => recvByteW2 s
  | .w3 => recvByteW3 s
  | .y1 => receiveByteY1 s
  | .y2 => receiveByteY2 s
  | .y2f w => receiveByteY2Failed w s
  | .y3 => receiveByteY3 s
  | .y4 b => receiveByteY4 b s
  | .y6 => receiveByteY6 s
  | .y7 => receiveByteY7 s
  | .y8 w => receiveByteY8 w s
  | .y9 => receiveByteY9 s
  | .busReset st reply => busResetStep st reply s
  | .k1 => cleanupK1 s
  | .k2 => cleanupK2 s
  | .k3 => cleanupK3 s

/-- Run the foreground through the turns of the schedule until it awaits an instruction or the turns are used up; what
is left of the schedule stays in the state. A turn whose events put the foreground at a fetch position (a power-on
reset, R61) keeps its foreground step, the first poll of the fetch, for the next step: every turn holds one foreground
step (R97). -/
def runTurns : List Turn → State → State
  | [], s => { s with sched := [] }
  | t :: ts, s =>
    if s.pos.isFetch then { s with sched := t :: ts }
    else if (s.turn t).pos.isFetch then { s.turn t with sched := [] :: ts }
    else runTurns ts (fg (s.turn t))

/-- Run the instruction in progress through the schedule. -/
def State.run (s : State) : State := runTurns s.sched s

/-- A state at which `Execute` is to begin. -/
def Pos.isReady : Pos → Bool
  | .ready _ => true
  | _ => false

/-- The turns in which `Execute` begins (R259): `line` is the implicit power-on or the command's first line. A turn in
which a power-on reset falls leaves nothing to execute, and its foreground step to the fetch. -/
def beginTurns (line : State → State) : List Turn → State → State
  | [], s => { s with sched := [] }
  | t :: ts, s =>
    let s := s.turn t
    if s.pos.isReady then
      let s := line s
      if s.pos.isReady then beginTurns line ts s else runTurns ts s
    else { s with sched := [] :: ts }

/-- `cur_cmd <- c; phase <- Dispatch` (R250), at the start of `Execute`. -/
def State.dispatched (s : State) (i : Instr) (c : Command) : State :=
  { s with disp := { s.disp with curCmd := some c, phase := .dispatch }, pos := .ready i }

/-- The implicit power-on of R260, one step of its own, before a command's first line. -/
def poweredLine (line : State → State) (s : State) : State := if s.sess.powered then line s else s.powerOn

/-- `Execute(c)` for a command other than `O` (R259, R260) with the given first line. -/
def execute (i : Instr) (c : Command) (line : State → State) (s : State) : State :=
  beginTurns (poweredLine line) s.sched (s.dispatched i c)

/-- `Exec(SyntaxError)` (R314): `NAK`, no implicit power-on. -/
def rejectLine (s : State) : State :=
  ({ s with disp := { s.disp with curCmd := some .syntaxError, phase := .dispatch } }.replyWith [s.cfg.nak]).run

end Sys2Proof.Machine
end

