-- ==== Sys2Proof/Machine/BadInput.lean ====
section
/-! DEFINITION. Host bytes that are no command: syntax errors and oversized lines (R314, R258), leader mismatches
(R254). -/

namespace Sys2Proof.Machine

/-- `Exec(SyntaxError)` (R314), or the `NAK` and the resync of an oversized line (R256, R258). -/
def execSyntaxError (bad : BadBody) (s : State) : Host.Outcome State Fault Refusal :=
  match bad with
  | .line _ => .next (rejectLine s)
  | .oversized _ _ => .next (s.goto (.put [s.cfg.nak] .resync)).run

/-- `Resync(b)` (R254): the byte that did not fit is itself tested; no reply. -/
def execResync (bad : BadLeader) (s : State) : Host.Outcome State Fault Refusal :=
  .next (if bad.byte = s.cfg.term then s.toCleanup else s.goto .resync).run

end Sys2Proof.Machine
end

