-- ==== Sys2Proof/Machine/BlockItems.lean ====
section
/-! DEFINITION. The items of a block (R125): each is one step of `DecNext` (R143) and what its caller does with it, in
`SendBlock` (R190) or in the drain of `Cleanup` (R266). A two-byte item has been read up to its second byte, so it is
`DecStep` in `SawEscape` on that byte. -/

namespace Sys2Proof.Machine

/-- `ESCAPE BLOCK_START` inside a block (R126): a violation (R141 row 7). -/
def execEscStart (s : State) : Host.Outcome State Fault Refusal :=
  .next (decodeByte .sawEscape s.cfg.blockStart s).run

/-- `ESCAPE ESCAPE` (R141 row 3). -/
def execEscEsc (s : State) : Host.Outcome State Fault Refusal :=
  .next (decodeByte .sawEscape s.cfg.escape s).run

/-- `ESCAPE BLOCK_END` (R144). -/
def execEscEnd (s : State) : Host.Outcome State Fault Refusal :=
  .next (decodeByte .sawEscape s.cfg.blockEnd s).run

/-- `ESCAPE CHECKPOINT` (R145; before the first payload byte a violation, R141 row 6). -/
def execEscChk (s : State) : Host.Outcome State Fault Refusal :=
  .next (decodeByte .sawEscape s.cfg.checkpoint s).run

/-- `ESCAPE x` (R146). -/
def execEscOther (x : Byte) (s : State) : Host.Outcome State Fault Refusal :=
  .next (decodeByte .sawEscape x s).run

/-- A byte other than `ESCAPE` (R141 row 2). -/
def execLiteral (x : Byte) (s : State) : Host.Outcome State Fault Refusal :=
  .next (decodeByte .normal x s).run

end Sys2Proof.Machine
end

