-- ==== Sys2Proof/Machine/BusCommands.lean ====
section
/-! DEFINITION. The commands that act on the bus and on power (spec/44_commands_bus.md). -/

namespace Sys2Proof.Machine

/-- `PWRON` (R280): powered on if off, then `ACK`. -/
def execPwron (s : State) : Host.Outcome State Fault Refusal :=
  .next (execute .pwron .pwrOn (fun s => s.replyWith [s.cfg.ack]) s)

/-- `C xx` (R281), first line G1; attention is released after a success (G4). -/
def execBusCmdRelease (b : Byte) (s : State) : Host.Outcome State Fault Refusal :=
  .next (execute (.busCmdRelease b) (.busCmd b true) (fun s => s.needTalker.goto (.g2 b true)) s)

/-- `c xx` (R281), first line G1; attention stays asserted after a success. -/
def execBusCmdHold (b : Byte) (s : State) : Host.Outcome State Fault Refusal :=
  .next (execute (.busCmdHold b) (.busCmd b false) (fun s => s.needTalker.goto (.g2 b false)) s)

/-- `BLK` (R284), first line D1; it runs to the block's first item. -/
def execBlk (s : State) : Host.Outcome State Fault Refusal :=
  .next (execute .blk .sendBlk (fun s => s.needTalker.goto .d2) s)

/-- `?` (R285), first line V1. -/
def execRecvBlk (s : State) : Host.Outcome State Fault Refusal :=
  .next (execute .recvBlk .recvBlk (fun s => s.needListener.goto .v2) s)

/-- `B` (R286), first line W1. -/
def execRecvByte (s : State) : Host.Outcome State Fault Refusal :=
  .next (execute .recvByte .recvByte (fun s => s.needListener.goto .w2) s)

/-- `Z` (R287): the bus reset of R215, then `ACK`. Its first line is Z1. -/
def execBusRst (s : State) : Host.Outcome State Fault Refusal :=
  .next (execute .busRst .busRst (fun s => busResetStep .z1 s.cfg.ack s) s)

/-- `O` (R288): no implicit power-on before it, no reply after it. -/
def execPwrOff (s : State) : Host.Outcome State Fault Refusal :=
  .next (beginTurns (fun s => s.powerOff.toCleanup) s.sched (s.dispatched .pwrOff .pwrOff))

end Sys2Proof.Machine
end

