-- ==== Sys2Proof/Machine/ConfigCommands.lean ====
section
/-! DEFINITION. The configuration and query commands (spec/45_commands_config.md). An operand that does not parse or is
out of the enforced range makes the command a syntax error (R316); the decoder never builds such a term. -/

namespace Sys2Proof.Machine

/-- `e d` (R300). -/
def execSetWriteMode (d : Digits) (s : State) : Host.Outcome State Fault Refusal :=
  match writeModeOperand d with
  | some v =>
    .next (execute (.setWriteMode d) (.setWriteMode v)
      (fun s => { s with sess := { s.sess with writeMode := v } }.replyWith [s.cfg.ack]) s)
  | none => .next (rejectLine s)

/-- `t d` (R301). -/
def execSetByteTimeout (d : Digits) (s : State) : Host.Outcome State Fault Refusal :=
  match byteTimeoutOperand s.cfg d with
  | some v =>
    .next (execute (.setByteTimeout d) (.setByteTimeout v)
      (fun s => { s with tmo := { s.tmo with byteTimeout := v } }.replyWith [s.cfg.ack]) s)
  | none => .next (rejectLine s)

/-- `T d` (R302). -/
def execSetTotalTimeout (d : Digits) (s : State) : Host.Outcome State Fault Refusal :=
  match wideTimeoutOperand d with
  | some v =>
    .next (execute (.setTotalTimeout d) (.setTotalTimeout v)
      (fun s => { s with tmo := { s.tmo with totalTimeout := v } }.replyWith [s.cfg.ack]) s)
  | none => .next (rejectLine s)

/-- `f d` (R303). -/
def execSetFirstTimeout (d : Digits) (s : State) : Host.Outcome State Fault Refusal :=
  match wideTimeoutOperand d with
  | some v =>
    .next (execute (.setFirstTimeout d) (.setFirstTimeout v)
      (fun s => { s with tmo := { s.tmo with firstByteTimeout := v } }.replyWith [s.cfg.ack]) s)
  | none => .next (rejectLine s)

/-- `m 0|1` (R305). -/
def execSetRen (x : Bool) (s : State) : Host.Outcome State Fault Refusal :=
  .next (execute (.setRen x) (.setRen x)
    (fun s => { s with sess := { s.sess with renAsserted := x } }.replyWith [s.cfg.ack]) s)

/-- `Q 0|1` (R306): the monitor, and the latch cleared. -/
def execSetSrq (x : Bool) (s : State) : Host.Outcome State Fault Refusal :=
  .next (execute (.setSrq x) (.setSrq x)
    (fun s =>
      { s with
        sess := { s.sess with srqMonitor := x }
        disp := { s.disp with srqLatched := false } }.replyWith [s.cfg.ack]) s)

/-- `I 0|1|2` (R308): the string's bytes, no `ACK`. -/
def execIdent (n : Fin 3) (s : State) : Host.Outcome State Fault Refusal :=
  .next (execute (.ident n) (.ident n) (fun s => s.replyWith (s.cfg.idString n)) s)

/-- `S` (R309): all eight lines sampled in one step, the byte, no `ACK`. -/
def execStatus (s : State) : Host.Outcome State Fault Refusal :=
  .next (execute .status .status (fun s => s.replyWith [s.statusByte]) s)

end Sys2Proof.Machine
end

