-- ==== Sys2Proof/Machine/Dispatch.lean ====
section
/-! DEFINITION. The meaning of every instruction: one arm per constructor of Instr. -/

namespace Sys2Proof.Machine

def exec (i : Instr) (s : State) : Host.Outcome State Fault Refusal :=
  match i with
  -- spec/44_commands_bus.md
  | .pwron => Sys2Proof.Machine.execPwron s
  | .busCmdRelease b => Sys2Proof.Machine.execBusCmdRelease b s
  | .busCmdHold b => Sys2Proof.Machine.execBusCmdHold b s
  | .blk => Sys2Proof.Machine.execBlk s
  | .recvBlk => Sys2Proof.Machine.execRecvBlk s
  | .recvByte => Sys2Proof.Machine.execRecvByte s
  | .busRst => Sys2Proof.Machine.execBusRst s
  | .pwrOff => Sys2Proof.Machine.execPwrOff s
  -- spec/45_commands_config.md
  | .setWriteMode d => Sys2Proof.Machine.execSetWriteMode d s
  | .setByteTimeout d => Sys2Proof.Machine.execSetByteTimeout d s
  | .setTotalTimeout d => Sys2Proof.Machine.execSetTotalTimeout d s
  | .setFirstTimeout d => Sys2Proof.Machine.execSetFirstTimeout d s
  | .setRen x => Sys2Proof.Machine.execSetRen x s
  | .setSrq x => Sys2Proof.Machine.execSetSrq x s
  | .ident n => Sys2Proof.Machine.execIdent n s
  | .status => Sys2Proof.Machine.execStatus s
  -- spec/40_framing_codec.md
  | .escStart => Sys2Proof.Machine.execEscStart s
  | .escEsc => Sys2Proof.Machine.execEscEsc s
  | .escEnd => Sys2Proof.Machine.execEscEnd s
  | .escChk => Sys2Proof.Machine.execEscChk s
  | .escOther x => Sys2Proof.Machine.execEscOther x s
  | .literal x => Sys2Proof.Machine.execLiteral x s
  -- spec/43_dispatcher.md
  | .syntaxError bad => Sys2Proof.Machine.execSyntaxError bad s
  | .resync bad => Sys2Proof.Machine.execResync bad s

end Sys2Proof.Machine
end

