-- ==== Sys2Proof/Machine/Fetch.lean ====
section
/-! DEFINITION. The fetch: `HostGet` driving the decoder's automata, at a command boundary (R253, R256) and inside a
block (R143); and how an instruction is placed where the next fetch finds it. -/

namespace Sys2Proof.Machine

/-- The parser's state, read from `leader_idx` and `cmd_buf` (R50 to R52). -/
def State.parser (s : State) : ParseState :=
  if s.pos = .body then .body s.disp.cmdBuf else if s.disp.leaderIdx = 0 then .leader0 else .leader1

/-- Write the parser's state back (R253, R256). -/
def State.setParser (s : State) (st : ParseState) : State :=
  match st with
  | .leader0 => { s with disp := { s.disp with leaderIdx := 0 }, pos := .leader }
  | .leader1 => { s with disp := { s.disp with leaderIdx := 1 }, pos := .leader }
  | .body buf => { s with disp := { s.disp with phase := .awaitCommand, cmdBuf := buf }, pos := .body }

/-- What a poll, or a run of polls, of the fetch gives. -/
inductive Fetched where
  /-- No instruction yet. -/
  | more (s : State)
  /-- An instruction has been read. -/
  | instr (i : Instr) (s : State)
  /-- The fetch was abandoned: a suspend was noticed. -/
  | abandon (s : State)

/-- `HostGet` returned `Abort` (R269, R190 B1, R266): a parse goes to `Cleanup`, a block-send returns `Suspended`, a
drain returns. -/
def fetchAborted (s : State) : State :=
  match s.pos with
  | .item => finish .suspended s
  | .drain => s.goto .k3
  | _ => s.toCleanup

/-- What a byte taken from the host does where the fetch stands. -/
def fetchByte (b : Byte) (s : State) : Fetched :=
  if s.pos = .item ∨ s.pos = .drain then
    match itemByte s.cfg s.xfer.codec b with
    | some i => .instr i s
    | none => .more (s.setXfer fun x => { x with codec := .sawEscape })
  else
    match parseByte s.cfg s.parser b with
    | .more st => .more (s.setParser st)
    | .done i => .instr i s

/-- One poll of the fetch. -/
def fetchPoll (s : State) : Fetched :=
  match hostGet s with
  | .abort => .abandon (fetchAborted s)
  | .empty s' => .more s'
  | .byte b s' => fetchByte b s'

/-- The fetch through the turns of the schedule. -/
def fetchTurns : List Turn → State → Fetched
  | [], s => .more { s with sched := [] }
  | t :: ts, s =>
    match fetchPoll (s.turn t) with
    | .more s' => fetchTurns ts s'
    | .instr i s' => .instr i { s' with sched := ts }
    | .abandon s' => .abandon { s' with sched := ts }

/-- Turns in which nothing happens but the foreground's step. -/
def quietTurns (n : Nat) : List Turn := List.replicate n []

/-- Place an instruction's bytes so that the next fetch reads them: at the head of the RX queue, no suspend pending,
the foreground at a command boundary or, for a block item, at the first item of a block that has been opened, and
enough quiet turns for the fetch and the run. -/
def placeInstr (ctx : Context) (bs : List Byte) (s : State) : State :=
  let s := { s with
    rx := bs ++ s.rx
    sched := quietTurns (bs.length + 64) ++ s.sched
    abt := { s.abt with suspended := false } }
  match ctx with
  | .command =>
    { s with disp := { s.disp with phase := .awaitLeader, leaderIdx := 0, cmdBuf := [] }, pos := .leader }
  | .block =>
    { s with
      xfer := s.xfer.decInit
      disp := { s.disp with phase := .transfer, curCmd := some .sendBlk }
      pos := .item }

end Sys2Proof.Machine
end

