-- ==== Sys2Proof/Machine/Step.lean ====
section
/-! DEFINITION. One step of the machine: fetch the next instruction and execute it, through the turns of the schedule;
or go on with the instruction in progress. -/

namespace Sys2Proof.Machine

/-- One step. At a fetch position the fetch runs and the instruction it reads is executed; a command that has been
parsed and has had no turn yet is executed; any other position is in the middle of an instruction, which goes on. When
the schedule has no turn left the state says where the foreground stands. -/
def step (s : State) : Host.Outcome State Fault Refusal :=
  match s.pos with
  | .ready i => exec i s
  | p =>
    if p.isFetch then
      match fetchTurns s.sched s with
      | .instr i s' => exec i s'
      | .more s' => .next s'
      | .abandon s' => .next s'.run
    else .next s.run

/-- The state with the instruction of a table word where `step` fetches its next instruction (log entry 13). -/
def State.withFetchWord (s : State) (nbits w : Nat) : State :=
  placeInstr (tableContext s.cfg nbits w) (tableBytes s.cfg nbits w) s

end Sys2Proof.Machine
end

