-- ==== Sys2Proof/Machine/Executions.lean ====
section
/-! DEFINITION. Endless executions and the fairness of R97. A schedule is finite data in the state; an endless
execution hands the machine one more turn each time. Every turn ends in one foreground step, so the foreground is never
starved; of the tick, weak fairness is a property of the turns; nothing is assumed of the host and the bus. -/

namespace Sys2Proof.Machine

/-- The state with one more turn to come. -/
def State.given (s : State) (t : Turn) : State := { s with sched := s.sched ++ [t] }

/-- The state after a step; the state itself if the step stopped, which no step does (R320). -/
def State.stepped (s : State) : State :=
  match step s with
  | .next t => t
  | _ => s

/-- The execution from `s` under endless turns: its state before turn `n`. -/
def execution (turns : Nat → Turn) (s : State) : Nat → State
  | 0 => s
  | n + 1 => ((execution turns s n).given (turns n)).stepped

/-- `tick_armed` is 1 from turn `n` on without a break. -/
def armedFrom (turns : Nat → Turn) (s : State) (n : Nat) : Prop :=
  ∀ m, n ≤ m → (execution turns s m).tmo.tickArmed = true ∧ Event.suspend ∉ turns m

/-- Weak fairness of the tick while `tick_armed = 1` (R97): where it stays armed, it comes. -/
def TickFair (turns : Nat → Turn) (s : State) : Prop :=
  ∀ n, armedFrom turns s n → ∃ m, n ≤ m ∧ Event.tick ∈ turns m

end Sys2Proof.Machine
end

