-- ==== Sys2Proof/Safety.lean ====
section
/-! DEFINITION. What counts as a safe state and a calm environment, in the terms the statements use: the invariant of
the machine, one named clause per rule, and predicates on schedules. -/

namespace Sys2Proof.Machine

/-! ## The invariant -/

/-- The phase a position belongs to (R50, R250, R261). -/
def Pos.phaseFits : Pos → Phase → Bool
  | .leader, p => p == .awaitLeader
  | .body, p => p == .awaitCommand
  | .ready _, p => p == .dispatch
  | .resync, p => p == .awaitLeader || p == .awaitCommand
  | .put _ .resync, p => p == .awaitCommand
  | .put _ .cleanup, p => p == .dispatch || p == .transfer
  | .put _ _, p => p == .transfer
  | .g2 _ _, p | .d2, p | .d3, p | .v2, p | .v3, p | .w2, p | .w3, p => p == .dispatch
  | .busReset _ _, p => p == .dispatch || p == .transfer
  | .k1, p | .k2, p | .k3, p | .drain, p => p == .cleanup
  | _, p => p == .transfer

/-- The role a position requires (R173), where it requires one. -/
def Pos.role : Pos → Option Role
  | .g2 _ _ | .c1 _ _ | .src _ _ _ _ | .c3 _ _ | .d2 | .d3 | .b0 | .b3 _ | .item | .put _ .item => some .talker
  | .v2 | .v3 | .l0 | .l1 | .l2 | .l2f _ | .l3 | .l4 _ _ | .l6 _ | .l7 _ | .l8 _ _ | .l9 _ => some .listener
  | .w2 | .w3 | .y1 | .y2 | .y2f _ | .y3 | .y4 _ | .y6 | .y7 | .y8 _ | .y9 => some .listener
  | .put _ .blockStart | .put _ (.captured _) | .put _ (.blockEnd _) | .put _ .nullByte | .put _ .rawByte =>
    some .listener
  | .busReset .z2 _ | .busReset .z3 _ => some .idle
  | _ => none

/-- A bus operation or a bus reset is in progress at the position; it needs power (R260). -/
def Pos.needsPower (p : Pos) : Bool :=
  p.role.isSome || (match p with | .busReset _ _ => true | _ => false)

/-- Positions at which DAV may be asserted: from S5 to its release (R180). -/
def Pos.davMay : Pos → Bool
  | .src .s6 _ _ _ | .src .s7 _ _ _ | .src (.sf _) _ _ _ => true
  | _ => false

/-- Positions at which EOI may be asserted: from S4 to its release (R180). -/
def Pos.eoiMay : Pos → Bool
  | .src .s5 _ _ _ | .src .s6 _ _ _ | .src .s7 _ _ _ | .src (.sf _) _ _ _ => true
  | _ => false

/-- `phase` agrees with the position (R50). -/
def State.phaseFits (s : State) : Bool := s.pos.phaseFits s.disp.phase

/-- The role is the one the position requires (R173). -/
def State.roleFits (s : State) : Bool :=
  match s.pos.role with
  | some r => s.sess.role == r
  | none => true

/-- R177: which outputs may be asserted in which role; IFC only inside the pulse (R215); ATN under a listener only
until the receive operation releases it. -/
def State.linesFitRole (s : State) : Bool :=
  (match s.sess.role with
   | .idle => !s.out.atn && !s.out.dav && !s.out.eoi && !s.out.nrfd && !s.out.ndac && !s.out.dioOe
   | .talker => !s.out.nrfd && !s.out.ndac
   | .listener => !s.out.dav && !s.out.eoi && !s.out.dioOe && (!s.out.atn || s.pos == .v2 || s.pos == .w2))
  && (!s.out.ifc || (match s.pos with | .busReset .z3 _ => true | _ => false))

/-- Positions at which a listener may have NRFD released: ready for data (L1 to L4, Y1 to Y4: R200, R210). -/
def Pos.nrfdMayDrop : Pos → Bool
  | .l2 | .l2f _ | .l3 | .l4 _ _ | .y2 | .y2f _ | .y3 | .y4 _ => true
  | _ => false

/-- Positions at which a listener may have NDAC released: data accepted (L6 to L8, Y6 to Y8: R200, R210). -/
def Pos.ndacMayDrop : Pos → Bool
  | .l7 _ | .l8 _ _ | .y7 | .y8 _ => true
  | _ => false

/-- DAV and EOI are released between bytes (R180, R193); a listener holds NRFD and NDAC asserted between bytes (R175,
R204). -/
def State.handshakeFits (s : State) : Bool :=
  (!s.out.dav || s.pos.davMay) && (!s.out.eoi || s.pos.eoiMay)
  && (s.sess.role != .listener || ((s.out.nrfd || s.pos.nrfdMayDrop) && (s.out.ndac || s.pos.ndacMayDrop)))

/-- The handshake runs under attention: it is `SendCommand`'s (R185). -/
def SrcReturn.underAttention : SrcReturn → Bool
  | .command _ => true
  | .data _ | .last => false

/-- What DAV and EOI are at a step of `SrcHandshake(b, with_eoi)` (R180): EOI is `with_eoi` from S4 on, DAV asserted from
S5 on, both until they are released together, at S7 or SF. A suspend may be found at any of the three waits. -/
def SrcStep.drivenFits (st : SrcStep) (withEoi : Bool) (o : BusOut) : Bool :=
  match st with
  | .s1 | .s2 | .s3 | .s4 | .s8 => !o.dav && !o.eoi
  | .s5 => !o.dav && o.eoi == withEoi
  | .s6 | .s7 | .sf (.failed .notAccepted) => o.dav && o.eoi == withEoi
  | .sf .suspended => o.eoi == (o.dav && withEoi)
  | .sf _ => !o.dav && !o.eoi

/-- The lines CORE drives at each position of an operation, exactly: the source's byte on the data lines from S1 on, DAV
and EOI step by step, attention asserted in `SendCommand` and released in `SendBlock` (R180, R185, R284); the listener's
NRFD released from L1 or Y1 until L4 or Y4, its NDAC from L6 or Y6 until L8 or Y8, both asserted elsewhere (R200, R210);
IFC in the pulse (R215). -/
def State.drivenFits (s : State) : Bool :=
  match s.pos with
  | .src st b e k =>
    s.out.atn == k.underAttention && (st == .s1 || s.out.dioOe && s.out.dio == b) && st.drivenFits e s.out
  | .c3 _ _ => s.out.atn
  | .d3 | .b0 | .item | .b3 _ | .put _ .item => !s.out.atn
  | .l2 | .l2f _ | .l3 | .l4 _ _ | .y2 | .y2f _ | .y3 | .y4 _ => !s.out.nrfd && s.out.ndac
  | .l7 _ | .l8 _ _ | .y7 | .y8 _ => s.out.nrfd && !s.out.ndac
  | .l0 | .l1 | .l6 _ | .l9 _ | .y1 | .y6 | .y9 => s.out.nrfd && s.out.ndac
  | .put _ .blockStart | .put _ (.captured _) | .put _ (.blockEnd _) | .put _ .nullByte | .put _ .rawByte =>
    s.out.nrfd && s.out.ndac
  | .busReset .z3 _ => s.out.ifc
  | _ => true

/-- The byte a block-send is sourcing is the held one (R190 B2, B4, R191); the end marker has been taken exactly when it
is sourced as the last. -/
def State.heldFits (s : State) : Bool :=
  match s.pos with
  | .src _ b _ (.data _) => s.xfer.holdValid && s.xfer.holdByte == b
  | .src _ b _ .last => s.xfer.holdValid && s.xfer.holdByte == b && s.xfer.blockDone
  | _ => true

/-- With the power off every line is released and no bus operation runs (R289, R355). -/
def State.offIsReleased (s : State) : Bool :=
  s.sess.powered ||
    (s.sess.role == .idle && !s.out.atn && !s.out.dav && !s.out.eoi && !s.out.nrfd && !s.out.ndac && !s.out.ifc
      && !s.out.dioOe && !s.pos.needsPower)

/-- `debug_mode_enabled` is always 0 (R312). -/
def State.debugIsOff (s : State) : Bool := !s.sess.debugMode

/-- The timers run exactly while an operation is in flight, and are clear otherwise (R36, R227, R293). -/
def State.timersFit (s : State) : Bool :=
  (if s.tmo.opActive then s.disp.phase == .transfer || s.pos == .k1
   else s.disp.phase != .transfer && !s.tmo.useFirst && s.tmo.byteCtr == 0#16 && s.tmo.totalCtr == 0#16)

/-- `byte_timeout` fits its register (R30). -/
def State.widthFits (s : State) : Bool := decide (s.tmo.byteTimeout.toNat < 2 ^ s.cfg.byteTimeoutWidth.bits)

/-- The timeout flag and the failure stamp are clear while no operation has begun (R40, R42, R224, R251). -/
def State.abortFits (s : State) : Bool :=
  (s.disp.phase == .transfer || s.disp.phase == .cleanup) || (!s.abt.timedOut && s.abt.failReason == none)

/-- The tick is disarmed exactly from a suspend to its resume; a noticed suspend leaves the resume to the first byte of
the next cycle (R340, R342). -/
def State.suspendFits (s : State) : Bool :=
  s.abt.resumePending == !s.tmo.tickArmed
  && (!s.abt.suspended || s.abt.resumePending)
  && (!s.abt.resumePending || s.abt.suspended || (s.pos == .leader && s.disp.leaderIdx == 0))

/-- The parser's buffer: empty at a leader, never longer than `MAX_CMD_LEN` (R52, R251). -/
def State.bufferFits (s : State) : Bool :=
  decide (s.disp.cmdBuf.length ≤ s.cfg.maxCmdLen) && (s.pos != .leader || s.disp.cmdBuf == [])

/-- What `cur_cmd` is at a position (R53, R250, R251): `None` while a command is being read, the engine command itself
inside its operation. -/
def Pos.commandFits : Pos → Option Command → Bool
  | .leader, c | .body, c | .resync, c | .put _ .resync, c => c == none
  | .ready i, c => i.isCommand && c.isSome
  | .g2 b r, c | .c1 b r, c => c == some (.busCmd b r)
  | .src _ b _ (.command r), c => c == some (.busCmd b r)
  | .c3 _ r, some (.busCmd _ r') => r' == r
  | .c3 _ _, _ => false
  | .d2, c | .d3, c | .b0, c | .item, c | .drain, c | .b3 _, c | .put _ .item, c => c == some .sendBlk
  | .src _ _ _ (.data _), c | .src _ _ _ .last, c => c == some .sendBlk
  | .v2, c | .v3, c | .l0, c | .l1, c | .l2, c | .l2f _, c | .l3, c | .l4 _ _, c | .l6 _, c | .l7 _, c => c == some .recvBlk
  | .l8 _ _, c | .l9 _, c => c == some .recvBlk
  | .put _ .blockStart, c | .put _ (.captured _), c | .put _ (.blockEnd _), c => c == some .recvBlk
  | .w2, c | .w3, c | .y1, c | .y2, c | .y2f _, c | .y3, c | .y4 _, c | .y6, c | .y7, c | .y8 _, c => c == some .recvByte
  | .y9, c | .put _ .nullByte, c | .put _ .rawByte, c => c == some .recvByte
  | _, _ => true

/-- `cur_cmd` agrees with the position. -/
def State.commandFits (s : State) : Bool := s.pos.commandFits s.disp.curCmd

/-- While items are still to be decoded the block is not done (R48, R266). -/
def State.blockFits (s : State) : Bool :=
  match s.pos with
  | .item | .drain | .b3 _ | .put _ .item | .src _ _ _ (.data _) => !s.xfer.blockDone
  | _ => true

/-- Positions inside a block-send, from B1 on, at which `xfer.eoi_policy` is still to be read (R190). -/
def Pos.inSendLoop : Pos → Bool
  | .item | .b3 _ | .put _ .item | .src _ _ _ (.data _) => true
  | _ => false

/-- EOI goes with the last byte of a block exactly when `write_mode < 4`, and with no other byte (R23, R190). -/
def State.eoiFits (s : State) : Bool :=
  (!s.pos.inSendLoop || s.xfer.eoiPolicy == decide (s.sess.writeMode.toNat < 4))
  && (match s.pos with
      | .src _ _ eoi .last => eoi == decide (s.sess.writeMode.toNat < 4)
      | .src _ _ eoi _ => !eoi
      | _ => true)

/-- The invariant of the machine. -/
def State.inv (s : State) : Bool :=
  s.cfg.ok && s.phaseFits && s.roleFits && s.linesFitRole && s.handshakeFits && s.offIsReleased && s.debugIsOff
  && s.timersFit && s.widthFits && s.abortFits && s.suspendFits && s.bufferFits && s.commandFits && s.blockFits
  && s.eoiFits && s.drivenFits && s.heldFits

/-- Positions whose foreground step is one poll of a bus wait (R171). -/
def Pos.waits : Pos → Bool
  | .src .s2 _ _ _ | .src .s3 _ _ _ | .src .s6 _ _ _ | .l2 | .l7 _ | .y2 | .y7 => true
  | _ => false

/-! ## Schedules -/

/-- The event is neither a suspend nor a power-on reset. -/
def Event.undisturbed : Event → Bool
  | .suspend | .por => false
  | .tick | .hostByte _ | .rxFlush | .inputs _ => true

/-- No suspend and no power-on reset falls in these turns. -/
def undisturbed (ts : List Turn) : Bool := ts.all fun t => t.all Event.undisturbed

/-- The event neither suspends nor resets, and leaves data-valid released and the cancel at 0. -/
def Event.silent : Event → Bool
  | .suspend | .por => false
  | .tick | .hostByte _ | .rxFlush => true
  | .inputs i => !i.lines.dav && !i.hostCancel

/-- Ticks and host bytes may fall in these turns, but no talker sends and nobody cancels. -/
def silent (ts : List Turn) : Bool := ts.all fun t => t.all Event.silent

/-- The levels of a talker that offers `b`, with EOI if `e`; the rest as in `i`. -/
def Inputs.offering (i : Inputs) (b : Byte) (e : Bool) : Inputs :=
  { i with lines := { i.lines with dav := true, dio := b, eoi := e } }

/-- The levels at which a talker holds nothing and the host takes what it is sent. -/
def Inputs.restful (i : Inputs) : Bool := !i.lines.dav && !i.txFull && !i.hostCancel

/-- The turns in which a prompt talker sends `b` to `ReceiveBlock` (R200): L1; L2, where it asserts data-valid; L3; L4;
the puts of L5; L6; L7, where it releases data-valid; L8; L9. -/
def talkerByte (c : Cfg) (i : Inputs) (b : Byte) (e : Bool) : List Turn :=
  [[], [.inputs (i.offering b e)], [], []] ++ quietTurns (encPut c b).length ++ [[], [.inputs i], [], []]

/-- The turns in which a prompt talker sends `p`, with EOI on the last byte. -/
def talkerTurns (c : Cfg) (i : Inputs) : List Byte → List Turn
  | [] => []
  | [b] => talkerByte c i b true
  | b :: bs => talkerByte c i b false ++ talkerTurns c i bs

/-- The instruction moves no bus line and no part of the transfer context: the configuration and query commands,
`PWRON`, and what is no command (R315, R314, R254). -/
def leavesTheBus : Instr → Bool
  | .pwron | .setWriteMode _ | .setByteTimeout _ | .setTotalTimeout _ | .setFirstTimeout _ | .setRen _ | .setSrq _
  | .ident _ | .status | .syntaxError _ | .resync _ => true
  | .busCmdRelease _ | .busCmdHold _ | .blk | .recvBlk | .recvByte | .busRst | .pwrOff
  | .escStart | .escEsc | .escEnd | .escChk | .escOther _ | .literal _ => false

/-! ## States the statements speak of -/

/-- Every output released but the data byte's register: what `ReleaseBus` and the end of the IFC pulse leave (R176,
R215). -/
def BusOut.released (o : BusOut) : BusOut :=
  { o with atn := false, eoi := false, dav := false, nrfd := false, ndac := false, ifc := false, dioOe := false }

/-- The outputs of a listener between bytes, attention released (R175, R204). -/
def BusOut.listening (o : BusOut) : BusOut :=
  { o with atn := false, eoi := false, dav := false, nrfd := true, ndac := true, dioOe := false }

/-- The outputs after a byte has been sourced (R180). -/
def BusOut.sourced (o : BusOut) (b : Byte) : BusOut :=
  { o with eoi := false, dav := false, nrfd := false, ndac := false, dio := b, dioOe := true }

/-- The state with a role and with outputs. -/
def State.onBus (s : State) (r : Role) (o : BusOut) : State :=
  { s with sess := { s.sess with role := r }, out := o }

/-- CORE is between two commands (R252): idle, nothing pending. -/
def State.idle (s : State) : Bool :=
  s.pos == .leader && s.disp.phase == .awaitLeader && s.disp.leaderIdx == 0 && s.disp.cmdBuf == []
  && s.disp.curCmd == none && !s.abt.suspended && !s.abt.resumePending && !s.tmo.opActive

/-- The host channel takes a byte at once: no suspend, room in the TX queue (R75). -/
def State.canSend (s : State) : Bool := !s.abt.suspended && !s.inp.txFull

/-- The state after a command that ended here: the end of `Cleanup` without a suspend (R265), the given turns left. -/
def State.ended (s : State) (ts : List Turn) : State := { s.endOp.cycleStart with sched := ts }

/-- Append to what the host has been sent. -/
def State.sent (s : State) (bs : List Byte) : State := { s with tx := s.tx ++ bs }

/-- The state in which a command's first line runs: powered on if it was off (R260). -/
def State.poweredUp (s : State) : State := if s.sess.powered then s else s.powerOn

/-- The turns `Execute` takes before a command's second step: one more when it must power on. -/
def State.beginning (s : State) : Nat := if s.sess.powered then 1 else 2

/-- Powered off, the configuration at its defaults, every output released (R343, R355). -/
def State.isOff (s : State) : Bool :=
  !s.sess.powered && s.sess.role == .idle && s.sess.renAsserted == s.cfg.resetRen
  && s.sess.writeMode == s.cfg.resetWriteMode && s.sess.srqMonitor == s.cfg.resetSrqMonitor
  && s.tmo.byteTimeout == s.cfg.resetByteTimeout && s.tmo.firstByteTimeout == s.cfg.resetFirstByteTimeout
  && s.tmo.totalTimeout == s.cfg.resetTotalTimeout && s.tmo.byteCtr == 0#16 && s.tmo.totalCtr == 0#16
  && !s.tmo.useFirst && !s.tmo.opActive && !s.disp.srqLatched
  && !s.out.atn && !s.out.eoi && !s.out.dav && !s.out.nrfd && !s.out.ndac && !s.out.ifc && !s.out.dioOe

/-- The state with its parser advanced over the bytes before the one that completes an instruction. -/
def State.parsed (s : State) : ParseState → List Byte → State
  | _, [] => s
  | st, b :: bs =>
    match parseByte s.cfg st b with
    | .more st' => (s.setParser st').parsed st' bs
    | .done _ => s

/-- The state with `write_mode` replaced by the least value of its class, 0 for 0 to 3 and 4 for 4 to 7 (R23, R300). -/
def State.modeClass (s : State) : State :=
  { s with sess := { s.sess with writeMode := if s.sess.writeMode.toNat < 4 then 0#3 else 4#3 } }

/-- The state with the elements of R371 that are unspecified at this point overwritten. -/
def State.blind (s : State) : State :=
  s.setXfer fun x =>
    { x with
      dir := .send
      eoiPolicy := x.eoiPolicy && s.pos.inSendLoop
      holdByte := if x.holdValid then x.holdByte else 0#8 }

end Sys2Proof.Machine
end

