-- ==== Sys2Proof/Certificates/Slice0/Obligations.lean ====
section
/-! DEFINITION. The statements about the model, one `Prop` each. A statement about a run names the schedule it runs in:
a list of turns, quiet ones in which nothing but the foreground's step happens, and turns in which the named events
happen first. What follows in the schedule, `ts`, is left over. -/

open Sys2Proof Sys2Proof.Machine

/-! ## Encodings -/

/-- Decoding what `encode` writes for a well-formed instruction gives that instruction and leaves what follows.
For a configuration whose `ESCAPE` is a command letter this rests on log entry 32 (R111 before R104), a choice. -/
def Obligations.DecodeEncodeRoundTrip : Prop :=
  ∀ (c : Cfg) (i : Instr) (rest : List Byte),
    c.ok = true → i.wf c = true → decode c (contextOf i) (encode c i ++ rest) = .ok (i, rest)

/-- Whatever the decoder reads is well formed and was written exactly as `encode` writes it. For a
configuration whose `ESCAPE` is a command letter this rests on log entry 32 (R111 before R104), a choice. -/
def Obligations.EncodeDecodeExact : Prop :=
  ∀ (c : Cfg) (ctx : Context) (bs rest : List Byte) (i : Instr),
    c.ok = true → decode c ctx bs = .ok (i, rest) →
      i.wf c = true ∧ contextOf i = ctx ∧ bs = encode c i ++ rest

/-- A few words of the opcode table decode to their rows. Two readings are the model's choice: a word that opens with
`ESCAPE` is read as an item of a block (log entry 12), and a word of one byte, which the rows LITERAL and (resync) both
match, as LITERAL (log entry 28). -/
def Obligations.TableWordsDecode : Prop :=
  decodeTableWord 24 0x49420A = some .pwron
  ∧ decodeTableWord 40 0x4942433F0A = some (.busCmdRelease 0x3F#8)
  ∧ decodeTableWord 32 0x49421002 = some .blk
  ∧ decodeTableWord 32 0x49423F0A = some .recvBlk
  ∧ decodeTableWord 40 0x494265350A = some (.setWriteMode [5])
  ∧ decodeTableWord 40 0x494251310A = some (.setSrq true)
  ∧ decodeTableWord 40 0x494249320A = some (.ident 2)
  ∧ decodeTableWord 16 0x1003 = some .escEnd
  ∧ decodeTableWord 16 0x1041 = some (.escOther 0x41#8)
  ∧ decodeTableWord 8 0x41 = some (.literal 0x41#8)
  ∧ decodeTableWord 40 0x494265390A = some (.syntaxError (.line [0x65#8, 0x39#8]))

/-- `ParseDec` (R121): `None` for the empty string and for a string with a byte that is no digit, else the sum of the
digits by their places. -/
def Obligations.ParseDecimal : Prop :=
  parseDec [] = none
  ∧ (∀ (bs : List Byte) (b : Byte), b ∈ bs → (b.toNat < 0x30 ∨ 0x39 < b.toNat) → parseDec bs = none)
  ∧ ∀ (bs : List Byte), bs ≠ [] → (∀ b ∈ bs, 0x30 ≤ b.toNat ∧ b.toNat ≤ 0x39) →
      parseDec bs = some ((List.range bs.length).map fun k =>
        (bs[k]!.toNat - 0x30) * 10 ^ (bs.length - 1 - k)).sum

/-- The rows of R111, the last one included: a body of no row is a syntax error. That a row holds although its letter is
also the configured `ESCAPE` is the model's choice against R104 (log entry 32). -/
def Obligations.LineTable : Prop :=
  decodeLine [] = .pwron
  ∧ (∀ x, decodeLine [0x43#8, x] = .busCmdRelease x)
  ∧ (∀ x, decodeLine [0x63#8, x] = .busCmdHold x)
  ∧ decodeLine [0x3F#8] = .recvBlk
  ∧ decodeLine [0x42#8] = .recvByte
  ∧ decodeLine [0x5A#8] = .busRst
  ∧ decodeLine [0x4F#8] = .pwrOff
  ∧ (∀ ps v, parseDec ps = some v → v ≤ 7 →
      ∃ d, d.parse = some v ∧ d.map digitByte = ps ∧ decodeLine (0x65#8 :: ps) = .setWriteMode d)
  ∧ (∀ ps v, parseDec ps = some v →
      ∃ d, d.parse = some v ∧ d.map digitByte = ps ∧ decodeLine (0x74#8 :: ps) = .setByteTimeout d
        ∧ decodeLine (0x54#8 :: ps) = .setTotalTimeout d ∧ decodeLine (0x66#8 :: ps) = .setFirstTimeout d)
  ∧ decodeLine [0x6D#8, 0x30#8] = .setRen false ∧ decodeLine [0x6D#8, 0x31#8] = .setRen true
  ∧ decodeLine [0x51#8, 0x30#8] = .setSrq false ∧ decodeLine [0x51#8, 0x31#8] = .setSrq true
  ∧ decodeLine [0x49#8, 0x30#8] = .ident 0 ∧ decodeLine [0x49#8, 0x31#8] = .ident 1
  ∧ decodeLine [0x49#8, 0x32#8] = .ident 2
  ∧ decodeLine [0x53#8] = .status
  ∧ ∀ body : List Byte,
      body ≠ [] → (∀ x, body ≠ [0x43#8, x]) → (∀ x, body ≠ [0x63#8, x]) →
      body ∉ [[0x3F#8], [0x42#8], [0x5A#8], [0x4F#8], [0x53#8], [0x6D#8, 0x30#8], [0x6D#8, 0x31#8], [0x51#8, 0x30#8],
        [0x51#8, 0x31#8], [0x49#8, 0x30#8], [0x49#8, 0x31#8], [0x49#8, 0x32#8]] →
      (∀ ps v, body = 0x65#8 :: ps → parseDec ps = some v → 7 < v) →
      (∀ l ps, l ∈ [0x74#8, 0x54#8, 0x66#8] → body = l :: ps → parseDec ps = none) →
      decodeLine body = .syntaxError (.line body)

/-! ## The framing codec -/

/-- The seven rows of R141. -/
def Obligations.DecStepTable : Prop :=
  ∀ (c : Cfg) (seen : Bool), c.ok = true →
    decStep c .normal seen c.escape = (.sawEscape, seen, .more)
    ∧ (∀ b, b ≠ c.escape → decStep c .normal seen b = (.normal, true, .data b))
    ∧ decStep c .sawEscape seen c.escape = (.normal, true, .data c.escape)
    ∧ decStep c .sawEscape seen c.blockEnd = (.normal, seen, .finish)
    ∧ decStep c .sawEscape true c.checkpoint = (.normal, true, .checkpoint)
    ∧ decStep c .sawEscape false c.checkpoint = (.normal, false, .violation)
    ∧ (∀ b, b ≠ c.escape → b ≠ c.blockEnd → b ≠ c.checkpoint →
        decStep c .sawEscape seen b = (.normal, seen, .violation))

/-- R155: decoding an encoded payload gives it back and leaves what follows. -/
def Obligations.CodecRoundTrip : Prop :=
  ∀ (c : Cfg) (p rest : List Byte), c.ok = true →
    decodeAll c ((encodeBlock c p).drop 2 ++ rest) = .ok p rest

/-- R156: the length of an encoded block, and the four bytes of the empty one. -/
def Obligations.EncodedLength : Prop :=
  (∀ (c : Cfg) (p : List Byte), (encodeBlock c p).length = p.length + p.count c.escape + 4)
  ∧ encodeBlock Cfg.default [] = [0x10#8, 0x02#8, 0x10#8, 0x03#8]

/-- R158: no proper prefix of an encoded block ends it, whatever the payload contains. -/
def Obligations.NoFalseEnd : Prop :=
  (∀ (c : Cfg) (p : List Byte) (n : Nat), c.ok = true → n < (encodeBlock c p).length - 2 →
    ∃ q, decodeAll c (((encodeBlock c p).drop 2).take n) = .incomplete q)
  ∧ encodeBlock Cfg.default [0x10#8, 0x03#8] = [0x10#8, 0x02#8, 0x10#8, 0x10#8, 0x03#8, 0x10#8, 0x03#8]
  ∧ decodeAll Cfg.default [0x10#8, 0x10#8, 0x03#8, 0x10#8, 0x03#8] = .ok [0x10#8, 0x03#8] []

/-! ## Timers -/

/-- The tick of R222, group by group, and nothing else written (R221). -/
def Obligations.TickAction : Prop :=
  ∀ s : State,
    (s.tmo.tickArmed = false ∨ s.tmo.opActive = false → tick s = s)
    ∧ (s.tmo.tickArmed = true → s.tmo.opActive = true →
        ∃ (bc tc : Half) (f : Bool),
          tick s = { s with
            tmo := { s.tmo with byteCtr := bc, totalCtr := tc }
            abt := { s.abt with timedOut := s.abt.timedOut || f } }
          ∧ (let first := s.tmo.useFirst = true ∧ s.tmo.firstByteTimeout ≠ 0#16
             let byte := ¬first ∧ s.tmo.byteTimeout ≠ 0#16
             let total := s.tmo.totalTimeout ≠ 0#16
             ((first ∨ byte) → bc = s.tmo.byteCtr + 1#16) ∧ (¬first → ¬byte → bc = s.tmo.byteCtr)
             ∧ (total → tc = s.tmo.totalCtr + 1#16) ∧ (¬total → tc = s.tmo.totalCtr)
             ∧ (f = true ↔
                 (first ∧ s.tmo.firstByteTimeout.toNat ≤ bc.toNat) ∨ (byte ∧ s.tmo.byteTimeout.toNat ≤ bc.toNat)
                 ∨ (total ∧ s.tmo.totalTimeout.toNat ≤ tc.toNat))))

/-- R230: from counters at 0, the flag is set by exactly the tick whose number is an applicable threshold, and stays
set (R231) however far the counters run or wrap (R234). -/
def Obligations.NthTickSetsTheFlag : Prop :=
  ∀ (s : State) (k : Nat),
    s.tmo.tickArmed = true → s.tmo.opActive = true → s.tmo.byteCtr = 0#16 → s.tmo.totalCtr = 0#16 →
    s.abt.timedOut = false →
      ((s.turn (List.replicate k .tick)).abt.timedOut = true ↔
        (s.tmo.useFirst = true ∧ s.tmo.firstByteTimeout ≠ 0#16 ∧ s.tmo.firstByteTimeout.toNat ≤ k)
        ∨ (¬(s.tmo.useFirst = true ∧ s.tmo.firstByteTimeout ≠ 0#16) ∧ s.tmo.byteTimeout ≠ 0#16
            ∧ s.tmo.byteTimeout.toNat ≤ k)
        ∨ (s.tmo.totalTimeout ≠ 0#16 ∧ s.tmo.totalTimeout.toNat ≤ k))

/-- R233, R380: with all three thresholds 0, a `?` whose talker never sends waits for as long as the schedule lasts,
whatever ticks and host bytes fall in it. -/
def Obligations.DisabledTimeoutsHang : Prop :=
  ∀ s : State,
    s.pos = .l2 → s.tmo.byteTimeout = 0#16 → s.tmo.firstByteTimeout = 0#16 → s.tmo.totalTimeout = 0#16 →
    s.abt.timedOut = false → s.abt.suspended = false → s.out.dav = false → s.inp.lines.dav = false →
    s.inp.hostCancel = false → silent s.sched = true →
      ∃ t, step s = .next t ∧ t.pos = .l2 ∧ t.tx = s.tx ∧ t.out = s.out ∧ t.abt = s.abt

/-! ## The host channels, waits, roles -/

/-- One poll of `HostGet` (R73) and of `HostPut` (R75). -/
def Obligations.HostChannelPolls : Prop :=
  (∀ s : State, s.abt.suspended = true → hostGet s = .abort)
  ∧ (∀ (s : State) (b : Byte) (rest : List Byte), s.abt.suspended = false → s.rx = b :: rest →
      hostGet s = .byte b (if s.abt.resumePending then
        { s with
          rx := rest
          tmo := { s.tmo with tickArmed := true, byteCtr := 0#16, totalCtr := 0#16 }
          abt := { s.abt with resumePending := false } }
        else { s with rx := rest }))
  ∧ (∀ s : State, s.abt.suspended = false → s.rx = [] →
      hostGet s = .empty (if s.disp.phase = .awaitLeader ∧ s.disp.leaderIdx = 0 then srqPoll s else s))
  ∧ (∀ (s : State) (b : Byte),
      hostPut b s = if s.abt.suspended then .abort else if s.inp.txFull then .full else .ok { s with tx := s.tx ++ [b] })

/-- One iteration of `Wait` (R171): the condition, then the suspend, then the timeout, then the cancel. -/
def Obligations.WaitOrder : Prop :=
  ∀ (s : State) (r : Reason) (cancelable : Bool),
    wait true r cancelable s = some (.ok, s)
    ∧ (s.abt.suspended = true →
        wait false r cancelable s = some (.suspended, { s with abt := { s.abt with failReason := some r } }))
    ∧ (s.abt.suspended = false → s.abt.timedOut = true →
        wait false r cancelable s = some (.failed r, { s with abt := { s.abt with failReason := some r } }))
    ∧ (s.abt.suspended = false → s.abt.timedOut = false →
        wait false r cancelable s = if cancelable = true ∧ s.inp.hostCancel = true then some (.cancelled, s) else none)

/-- The role primitives (R174, R175, R176), with what each does not touch. -/
def Obligations.RolePrimitives : Prop :=
  ∀ s : State,
    s.assumeTalker = s.onBus .talker { s.out with nrfd := false, ndac := false }
    ∧ s.assumeListener = s.onBus .listener
        { s.out with dav := false, eoi := false, dioOe := false, nrfd := true, ndac := true }
    ∧ s.releaseBus = s.onBus .idle
        { s.out with dav := false, eoi := false, nrfd := false, ndac := false, dioOe := false, atn := false }

/-- `SrqPoll` (R335). -/
def Obligations.SrqPollRule : Prop :=
  ∀ s : State,
    (¬(s.sess.powered = true ∧ s.sess.srqMonitor = true) → srqPoll s = s)
    ∧ (s.sess.powered = true → s.sess.srqMonitor = true → s.inp.lines.srq = false →
        srqPoll s = { s with disp := { s.disp with srqLatched := false } })
    ∧ (s.sess.powered = true → s.sess.srqMonitor = true → s.inp.lines.srq = true →
        srqPoll s = if s.disp.srqLatched = false ∧ s.inp.txFull = false then
          { s with tx := s.tx ++ [s.cfg.srqNotify], disp := { s.disp with srqLatched := true } } else s)

/-- R336 (c): while CORE idles with the line held asserted, one notification goes out, however long it idles. -/
def Obligations.OneNotificationPerAssertion : Prop :=
  ∀ (s : State) (k : Nat), s.idle = true → s.rx = [] → s.sched = quietTurns k →
    ∃ t, step s = .next t ∧ t.pos = .leader ∧
      t.tx = s.tx ++ (if 0 < k ∧ s.sess.powered = true ∧ s.sess.srqMonitor = true ∧ s.inp.lines.srq = true
        ∧ s.disp.srqLatched = false ∧ s.inp.txFull = false then [s.cfg.srqNotify] else [])

/-! ## Reset, power, suspend, the end of an operation -/

/-- `LoadDefaults` (R60), every register it writes; what it does not write is unchanged. -/
def Obligations.LoadDefaultsRegisters : Prop :=
  ∀ s : State,
    s.loadDefaults = { s with
      sess :=
        { role := .idle, renAsserted := s.cfg.resetRen, writeMode := s.cfg.resetWriteMode,
          srqMonitor := s.cfg.resetSrqMonitor, debugMode := false, powered := s.sess.powered }
      tmo :=
        { byteTimeout := s.cfg.resetByteTimeout, firstByteTimeout := s.cfg.resetFirstByteTimeout,
          totalTimeout := s.cfg.resetTotalTimeout, byteCtr := 0#16, totalCtr := 0#16, useFirst := false,
          opActive := false, tickArmed := s.tmo.tickArmed }
      disp := { s.disp with srqLatched := false }
      out := s.out.released }

/-- POR (R61), from any state; the configuration, the host queues and the inputs are not CORE's and stay. -/
def Obligations.PowerOnReset : Prop :=
  ∀ s : State,
    (s.por).sess = { s.loadDefaults.sess with powered := false }
    ∧ (s.por).tmo = { s.loadDefaults.tmo with tickArmed := true }
    ∧ (s.por).abt = { timedOut := false, suspended := false, failReason := none, resumePending := false }
    ∧ (s.por).xfer.codec = .normal ∧ (s.por).xfer.seenFirst = false ∧ (s.por).xfer.blockDone = false
    ∧ (s.por).xfer.holdValid = false
    ∧ (s.por).disp = { phase := .awaitLeader, leaderIdx := 0, cmdBuf := [], curCmd := none, srqLatched := false }
    ∧ (s.por).out = { s.loadDefaults.out with dio := 0#8 }
    ∧ (s.por).pos = .leader
    ∧ (s.por).cfg = s.cfg ∧ (s.por).rx = s.rx ∧ (s.por).tx = s.tx ∧ (s.por).inp = s.inp

/-- The suspend event (R340), and the resume inside the `HostGet` that takes the next byte (R342). -/
def Obligations.SuspendAndResume : Prop :=
  (∀ s : State, Event.suspend.act s =
    { s with
      abt := { s.abt with suspended := true, resumePending := true }
      tmo := { s.tmo with tickArmed := false } })
  ∧ (∀ (s : State) (b : Byte) (rest : List Byte),
      s.abt.suspended = false → s.abt.resumePending = true → s.rx = b :: rest →
        hostGet s = .byte b
          { s with
            rx := rest
            tmo := { s.tmo with tickArmed := true, byteCtr := 0#16, totalCtr := 0#16 }
            abt := { s.abt with resumePending := false } })

/-- K3 of `Cleanup` (R265, R268): `SuspendCleanup` (R343) if the flag is set, then the cycle start, in one step. -/
def Obligations.CleanupFinalGroup : Prop :=
  ∀ s : State, s.pos = .k3 →
    (s.abt.suspended = false → fg s = s.cycleStart)
    ∧ (s.abt.suspended = true →
        fg s = ({ s.loadDefaults with
          sess := { s.loadDefaults.sess with powered := false }
          xfer := { s.xfer with codec := .normal, seenFirst := false, blockDone := false, holdValid := false }
        } : State).cycleStart)

/-- `Finish` (R264): the bus reset first where one is due, then the code; and the pulse of the bus reset (R215). -/
def Obligations.FinishAndBusReset : Prop :=
  ∀ s : State,
    finish .ok s = s.goto (.put [s.cfg.ack] .cleanup)
    ∧ finish (.failed .noData) s = s.goto (.put [0x09#8] .cleanup)
    ∧ finish (.failed .frameError) s = s.goto (.put [s.cfg.nak] .cleanup)
    ∧ finish (.failed .notReady) s = s.goto (.busReset .z1 0x01#8)
    ∧ finish (.failed .notAccepted) s = s.goto (.busReset .z1 0x02#8)
    ∧ finish (.failed .davNotReleased) s = s.goto (.busReset .z1 0x03#8)
    ∧ finish (.failed .noListener) s = s.goto (.busReset .z1 0x08#8)
    ∧ finish .suspended s = { s with disp := { s.disp with phase := .cleanup }, pos := .k1 }
    ∧ ∀ r : Byte, s.out.ifc = false →
        fg (s.goto (.busReset .z1 r)) = (s.onBus .idle s.out.released).goto (.busReset .z2 r)
        ∧ fg (fg (s.goto (.busReset .z1 r))) =
            (s.onBus .idle { s.out.released with ifc := true }).goto (.busReset .z3 r)
        ∧ fg (fg (fg (s.goto (.busReset .z1 r)))) = (s.onBus .idle s.out.released).goto (.put [r] .cleanup)

/-! ## Whole-machine rules -/

/-- The invariant holds at reset. -/
def Obligations.ResetInvariant : Prop := State.reset.inv = true

/-- Every step keeps the invariant, from every state that has it and under every schedule. -/
def Obligations.StepKeepsInvariant : Prop :=
  ∀ s t : State, s.inv = true → step s = .next t → t.inv = true

/-- R320: every input sequence leads to a next state; no instruction and no step stops. -/
def Obligations.StepNeverStops : Prop :=
  (∀ (i : Instr) (s : State), ∃ t, exec i s = .next t) ∧ ∀ s : State, ∃ t, step s = .next t

/-- At a command boundary or inside a line: when the bytes of the RX queue decode, from where the parser stands, to an
instruction, and the schedule leaves the fetch its quiet turns, the step is `exec` of that instruction at the state
with those bytes taken, the resume done if one was pending, and the parser where the last byte found it. -/
def Obligations.StepRunsDecodedCommand : Prop :=
  ∀ (s : State) (i : Instr) (rest : List Byte) (ts : List Turn),
    s.pos = .leader ∨ s.pos = .body → s.phaseFits = true → s.abt.suspended = false →
    decodeFrom s.cfg s.parser s.rx = .ok (i, rest) →
    s.sched = quietTurns (s.rx.length - rest.length) ++ ts →
      step s = exec i { s.resumed.parsed s.parser s.rx with rx := rest, sched := ts }

/-- Inside a block, or in the drain: the same for the next item. -/
def Obligations.StepRunsDecodedItem : Prop :=
  ∀ (s : State) (i : Instr) (rest : List Byte) (ts : List Turn),
    s.pos = .item ∨ s.pos = .drain → s.abt.suspended = false →
    decodeItemFrom s.cfg s.xfer.codec s.rx = .ok (i, rest) →
    s.sched = quietTurns (s.rx.length - rest.length) ++ ts →
      step s = exec i { s.resumed with
        xfer := { s.xfer with codec := if s.rx.length = rest.length + 2 then .sawEscape else s.xfer.codec }
        rx := rest
        sched := ts }

/-- Elsewhere: a parsed command is executed; an instruction in progress goes on, and in a schedule of one turn it takes
exactly one foreground step after that turn's events (R16, R91). A power-on reset among them puts the foreground at the
leader (R61), where its step is the first poll of the fetch: that quiet turn is left for the next step. -/
def Obligations.StepElsewhere : Prop :=
  (∀ (s : State) (i : Instr), s.pos = .ready i → step s = exec i s)
  ∧ ∀ (s : State) (t : Turn), s.pos.isFetch = false → s.sched = [t] →
      step s = .next (if (s.turn t).pos.isFetch then { s.turn t with sched := [[]] }
        else { fg (s.turn t) with sched := [] })

/-- R75, R72: what has been sent stays sent, in order; in quiet turns bytes leave the RX queue from its head only. -/
def Obligations.SentBytesStay : Prop :=
  (∀ s t : State, step s = .next t → ∃ new, t.tx = s.tx ++ new)
  ∧ ∀ (s t : State) (n : Nat), s.sched = quietTurns n → step s = .next t → ∃ taken, s.rx = taken ++ t.rx

/-- R76, R341: while the suspend is pending no step of the foreground sends to the host or takes from it. -/
def Obligations.NothingPassesWhileSuspended : Prop :=
  ∀ s : State, s.abt.suspended = true →
    ((fg s).tx = s.tx ∧ (fg s).rx = s.rx) ∧ ∃ t, fetchPoll s = .abandon t ∧ t.tx = s.tx ∧ t.rx = s.rx

/-- R269, R266, R344, R345: a suspend found while a command is read, or an item of a block, ends in `SuspendCleanup` and
the cycle start, without a reply; so does one found in the drain, which returns to the last step of `Cleanup` (R265). -/
def Obligations.SuspendAbandonsFetch : Prop :=
  ∀ (s : State) (ts : List Turn), s.abt.suspended = true →
    (s.pos = .leader ∨ s.pos = .body ∨ s.pos = .item → s.sched = quietTurns 4 ++ ts →
      step s = .next { s.endOp.suspendCleanup.cycleStart with sched := ts })
    ∧ (s.pos = .drain → s.sched = quietTurns 2 ++ ts →
      step s = .next { s.suspendCleanup.cycleStart with sched := ts })

/-- R343 to R345, R355: from any position at all, a pending suspend brings CORE to off, with nothing sent and nothing
taken; a block-send that is not at its `HostGet` yet may first stop there, with the flag still to be found
(`SuspendAbandonsFetch` goes on from there). -/
def Obligations.SuspendEndsEveryOperation : Prop :=
  ∀ (s : State) (ts : List Turn),
    s.inv = true → s.abt.suspended = true → s.sched = quietTurns 16 ++ ts →
      ∃ t, step s = .next t ∧ t.tx = s.tx ∧ t.rx = s.rx
        ∧ ((t.pos = .leader ∧ t.isOff = true ∧ t.abt.suspended = false ∧ t.abt.resumePending = true
              ∧ t.tmo.tickArmed = false)
           ∨ ((s.disp.curCmd = some .sendBlk ∨ s.pos = .ready .blk) ∧ s.pos ≠ .item ∧ t.pos = .item
              ∧ t.abt.suspended = true))

/-- R228, R293, R304 (c), R317: in a run that no suspend and no power-on reset disturbs, each configuration register
changes only under the command that sets it, or `O`; power goes only by `O`; the latch only by `Q`, `O` or an idle
poll. -/
def Obligations.ConfigWritersAreSeparate : Prop :=
  ∀ (i : Instr) (s t : State),
    undisturbed s.sched = true → s.abt.suspended = false → i ≠ .pwrOff → exec i s = .next t →
      ((∀ d, i ≠ .setWriteMode d) → t.sess.writeMode = s.sess.writeMode)
      ∧ ((∀ x, i ≠ .setRen x) → t.sess.renAsserted = s.sess.renAsserted)
      ∧ ((∀ x, i ≠ .setSrq x) → t.sess.srqMonitor = s.sess.srqMonitor)
      ∧ ((∀ d, i ≠ .setByteTimeout d) → t.tmo.byteTimeout = s.tmo.byteTimeout)
      ∧ ((∀ d, i ≠ .setTotalTimeout d) → t.tmo.totalTimeout = s.tmo.totalTimeout)
      ∧ ((∀ d, i ≠ .setFirstTimeout d) → t.tmo.firstByteTimeout = s.tmo.firstByteTimeout)
      ∧ t.sess.debugMode = s.sess.debugMode ∧ t.tmo.tickArmed = (s.tmo.tickArmed || !t.abt.resumePending && s.abt.resumePending)
      ∧ (s.sess.powered = true → t.sess.powered = true)
      ∧ (i.isCommand = false → t.sess.powered = s.sess.powered)
      ∧ ((∀ x, i ≠ .setSrq x) → s.disp.phase ≠ .awaitLeader → t.disp.srqLatched = s.disp.srqLatched)
      ∧ t.cfg = s.cfg

/-- R315, R314, R254, R27: frames, in any run that no suspend and no power-on reset disturbs. The commands that do not
act on the bus, and what is no command, leave outputs, role and transfer context as they were; the bus commands other
than the block commands leave the transfer context, and `?` writes only its direction. -/
def Obligations.FramesOfTheBus : Prop :=
  ∀ (s t : State), undisturbed s.sched = true → s.abt.suspended = false →
    (∀ i : Instr, leavesTheBus i = true → exec i s = .next t →
      t.out = s.out ∧ t.xfer = s.xfer ∧ (s.sess.powered = true → t.sess.role = s.sess.role))
    ∧ (∀ b : Byte, exec (.busCmdRelease b) s = .next t ∨ exec (.busCmdHold b) s = .next t
        ∨ exec .recvByte s = .next t ∨ exec .busRst s = .next t ∨ exec .pwrOff s = .next t → t.xfer = s.xfer)
    ∧ (exec .recvBlk s = .next t → t.xfer = { s.xfer with dir := t.xfer.dir })

/-- R23, R300: nothing CORE does depends on which value of its class, 0 to 3 or 4 to 7, `write_mode` holds. -/
def Obligations.WriteModeClassOnly : Prop :=
  ∀ s s' : State, s.modeClass = s'.modeClass →
    ∃ t t', step s = .next t ∧ step s' = .next t' ∧ t.modeClass = t'.modeClass

/-- R371: `xfer.dir`, `xfer.hold_byte` while it is not valid, and `xfer.eoi_policy` outside a block-send are never read:
runs from states that differ only there differ only there. -/
def Obligations.UnspecifiedElementsUnread : Prop :=
  ∀ s s' : State, s.inv = true → s'.inv = true → s.blind = s'.blind →
    ∃ t t', step s = .next t ∧ step s' = .next t' ∧ t.blind = t'.blind

/-! ## What each command does -/

/-- `PWRON` (R280): powered on if off, `ACK`, nothing else. `O` (R288): defaults and off, from on or off, without a
reply. -/
def Obligations.PowerCommandsComplete : Prop :=
  ∀ (s : State) (ts : List Turn), s.abt.suspended = false →
    (s.inp.txFull = false → s.sched = quietTurns (s.beginning + 4) ++ ts →
      exec .pwron s = .next ((s.poweredUp.sent [s.cfg.ack]).ended ts))
    ∧ (s.sched = quietTurns 4 ++ ts →
      exec .pwrOff s =
        .next (({ s.loadDefaults with sess := { s.loadDefaults.sess with powered := false } } : State).ended ts))

/-- `Z` (R287): every line released after the pulse, `role = Idle`, `ACK`. -/
def Obligations.BusResetCompletes : Prop :=
  ∀ (s : State) (ts : List Turn), s.canSend = true → s.sched = quietTurns (s.beginning + 6) ++ ts →
    exec .busRst s = .next (((s.poweredUp.onBus .idle s.out.released).sent [s.cfg.ack]).ended ts)

/-- The law of R287: after `Z`, from a command boundary with power on, only outputs and role differ, and a second `Z`
changes nothing but the reply. -/
def Obligations.BusResetIsIdempotent : Prop :=
  ∀ (s : State) (ts : List Turn),
    s.inv = true → s.idle = true → s.canSend = true → s.sess.powered = true → s.sched = quietTurns 14 ++ ts →
      exec .busRst s =
        .next { s.onBus .idle s.out.released with tx := s.tx ++ [s.cfg.ack], sched := quietTurns 7 ++ ts }
      ∧ exec .busRst { s.onBus .idle s.out.released with tx := s.tx ++ [s.cfg.ack], sched := quietTurns 7 ++ ts } =
          .next { s.onBus .idle s.out.released with tx := s.tx ++ [s.cfg.ack, s.cfg.ack], sched := ts }

/-- `e d` (R300) for every operand the decoder lets through. -/
def Obligations.WriteModeCompletes : Prop :=
  ∀ (s : State) (d : Digits) (v : Nat) (ts : List Turn),
    s.canSend = true → d.parse = some v → v ≤ 7 → s.sched = quietTurns (s.beginning + 4) ++ ts →
      exec (.setWriteMode d) s = .next
        (({ s.poweredUp with sess := { s.poweredUp.sess with writeMode := BitVec.ofNat 3 v } }.sent [s.cfg.ack]).ended ts)

/-- `t d`, `T d`, `f d` (R301 to R303): the number modulo two to the register's width. -/
def Obligations.TimeoutsComplete : Prop :=
  ∀ (s : State) (d : Digits) (v : Nat) (ts : List Turn),
    s.canSend = true → d.parse = some v → s.sched = quietTurns (s.beginning + 4) ++ ts →
      let w := BitVec.ofNat 16 (v % 2 ^ s.cfg.byteTimeoutWidth.bits)
      exec (.setByteTimeout d) s = .next
        (({ s.poweredUp with tmo := { s.tmo with byteTimeout := w } }.sent [s.cfg.ack]).ended ts)
      ∧ exec (.setTotalTimeout d) s = .next
        (({ s.poweredUp with tmo := { s.tmo with totalTimeout := BitVec.ofNat 16 v } }.sent [s.cfg.ack]).ended ts)
      ∧ exec (.setFirstTimeout d) s = .next
        (({ s.poweredUp with tmo := { s.tmo with firstByteTimeout := BitVec.ofNat 16 v } }.sent [s.cfg.ack]).ended ts)

/-- `m` and `Q` (R305, R306). -/
def Obligations.PoliciesComplete : Prop :=
  ∀ (s : State) (x : Bool) (ts : List Turn), s.canSend = true → s.sched = quietTurns (s.beginning + 4) ++ ts →
    exec (.setRen x) s = .next
      (({ s.poweredUp with sess := { s.poweredUp.sess with renAsserted := x } }.sent [s.cfg.ack]).ended ts)
    ∧ exec (.setSrq x) s = .next
      (({ s.poweredUp with
          sess := { s.poweredUp.sess with srqMonitor := x }
          disp := { s.disp with srqLatched := false } }.sent [s.cfg.ack]).ended ts)

/-- `I n` (R308) and `S` (R309): the bytes asked for, no `ACK`. -/
def Obligations.QueriesComplete : Prop :=
  ∀ (s : State) (n : Fin 3) (ts ts' : List Turn), s.canSend = true →
    (s.sched = quietTurns (s.beginning + (s.cfg.idString n).length + 3) ++ ts →
      exec (.ident n) s = .next ((s.poweredUp.sent (s.cfg.idString n)).ended ts))
    ∧ (s.sched = quietTurns (s.beginning + 4) ++ ts' →
      exec .status s = .next ((s.poweredUp.sent [s.poweredUp.statusByte]).ended ts'))

/-- The status byte (R129): each bit is the electrical level of its line. -/
def Obligations.StatusByteLayout : Prop :=
  ∀ s : State,
    s.statusByte.getLsbD 7 = !s.srqIn ∧ s.statusByte.getLsbD 6 = !s.atnIn ∧ s.statusByte.getLsbD 5 = !s.eoiIn
    ∧ s.statusByte.getLsbD 4 = !s.davIn ∧ s.statusByte.getLsbD 3 = !s.nrfdIn ∧ s.statusByte.getLsbD 2 = !s.ndacIn
    ∧ s.statusByte.getLsbD 1 = !s.ifcIn ∧ s.statusByte.getLsbD 0 = !s.renIn

/-- Syntax errors, oversized lines and leader mismatches (R314, R258, R254): `NAK` for the first two, nothing for the
third; the bytes through the next `TERM` are discarded for the last two; no state changes. A command term whose operand
R316 rejects, which no bytes decode to, is answered as a syntax error too (log entry 14). -/
def Obligations.BadInputCompletes : Prop :=
  ∀ (s : State) (ts : List Turn), s.abt.suspended = false →
    (∀ body, s.inp.txFull = false → s.sched = quietTurns 4 ++ ts →
      exec (.syntaxError (.line body)) s = .next ((s.sent [s.cfg.nak]).ended ts))
    ∧ (∀ d : Digits, s.inp.txFull = false → s.sched = quietTurns 4 ++ ts →
      ((∀ v, d.parse = some v → 7 < v) → exec (.setWriteMode d) s = .next ((s.sent [s.cfg.nak]).ended ts))
      ∧ (d.parse = none → exec (.setByteTimeout d) s = .next ((s.sent [s.cfg.nak]).ended ts)
          ∧ exec (.setTotalTimeout d) s = .next ((s.sent [s.cfg.nak]).ended ts)
          ∧ exec (.setFirstTimeout d) s = .next ((s.sent [s.cfg.nak]).ended ts)))
    ∧ (∀ bad : BadLeader, bad.byte = s.cfg.term → s.disp.curCmd = none → s.sched = quietTurns 3 ++ ts →
      exec (.resync bad) s = .next (s.ended ts))
    ∧ ∀ junk rest : List Byte,
      s.rx = junk ++ s.cfg.term :: rest → s.cfg.term ∉ junk → s.abt.resumePending = false → s.disp.curCmd = none →
        (∀ body b, s.inp.txFull = false → s.sched = quietTurns (junk.length + 5) ++ ts →
          exec (.syntaxError (.oversized body b)) s = .next (({ s with rx := rest }.sent [s.cfg.nak]).ended ts))
        ∧ (∀ bad : BadLeader, bad.byte ≠ s.cfg.term → s.sched = quietTurns (junk.length + 4) ++ ts →
          exec (.resync bad) s = .next ({ s with rx := rest }.ended ts))

/-- `C xx` and `c xx` (R281, R282, R185) with a listener that has NDAC asserted and NRFD released: the byte stands on the
data lines under attention, data-valid asserted, without EOI; and when the listener accepts, after `n` further polls,
the command ends. -/
def Obligations.BusCommandsComplete : Prop :=
  ∀ (s : State) (b : Byte) (i : Inputs) (n : Nat) (ts : List Turn),
    s.canSend = true → s.abt.timedOut = false → s.linesFitRole = true →
    s.inp.lines.nrfd = false → s.inp.lines.ndac = true →
      (s.out.eoi = false → s.sched = quietTurns (s.beginning + 7) →
        (∃ t, exec (.busCmdRelease b) s = .next t
          ∧ t.out = { s.out.sourced b with atn := true, dav := true, eoi := false })
        ∧ ∃ t, exec (.busCmdHold b) s = .next t
          ∧ t.out = { s.out.sourced b with atn := true, dav := true, eoi := false })
      ∧ (i.lines.ndac = false → i.txFull = false →
          s.sched = quietTurns (s.beginning + 7 + n) ++ [Event.inputs i] :: (quietTurns 7 ++ ts) →
        exec (.busCmdRelease b) s = .next
          (({ s.poweredUp.onBus .talker { s.out.sourced b with atn := false } with inp := i }.sent [s.cfg.ack]).ended ts)
        ∧ exec (.busCmdHold b) s = .next
          (({ s.poweredUp.onBus .talker { s.out.sourced b with atn := true } with inp := i }.sent [s.cfg.ack]).ended ts))

/-- `C xx` and `c xx` on a bus where nobody answers (R283, R322 row 4): after as many ticks as the bound of the first
byte, the bus reset and the code 8; attention is released. -/
def Obligations.CommandWithoutListener : Prop :=
  ∀ (s : State) (b : Byte) (n : Nat) (ts : List Turn),
    s.canSend = true → s.linesFitRole = true → s.tmo.tickArmed = true →
    s.inp.lines.nrfd = false → s.inp.lines.ndac = false →
    n = (if s.tmo.firstByteTimeout ≠ 0#16 then s.tmo.firstByteTimeout.toNat else s.tmo.byteTimeout.toNat) → 0 < n →
    s.sched = quietTurns (s.beginning + 3) ++ List.replicate n Event.tick :: (quietTurns 9 ++ ts) →
      exec (.busCmdRelease b) s = .next
        (((s.poweredUp.onBus .idle { s.out.released with dio := b }).sent [0x08#8]).ended ts)
      ∧ exec (.busCmdHold b) s = .next
        (((s.poweredUp.onBus .idle { s.out.released with dio := b }).sent [0x08#8]).ended ts)

/-- `BLK` (R284) up to its first item: talker, attention released, the timers begun, the codec initialised (R142), the
EOI policy `write_mode < 4`. -/
def Obligations.BlockOpens : Prop :=
  ∀ (s : State) (ts : List Turn), s.linesFitRole = true → s.sched = quietTurns (s.beginning + 3) ++ ts →
    exec .blk s = .next
      { s.poweredUp.onBus .talker { s.out with atn := false, nrfd := false, ndac := false } with
        tmo := { s.tmo with byteCtr := 0#16, totalCtr := 0#16, useFirst := true, opActive := true }
        xfer :=
          { s.xfer with
            dir := .send, eoiPolicy := decide (s.sess.writeMode.toNat < 4), codec := .normal, seenFirst := false
            blockDone := false, holdValid := false }
        disp := { s.disp with phase := .transfer, curCmd := some .sendBlk }
        pos := .item
        sched := ts }

/-- A payload byte (R141 rows 2 and 3, R190): the byte held before it, if any, stands on the data lines with data-valid
asserted and without EOI, to a listener that accepts after `n` further polls; then the new byte is held. -/
def Obligations.PayloadItemsComplete : Prop :=
  ∀ (s : State) (x : Byte) (i : Inputs) (n : Nat) (ts : List Turn),
    s.pos = .item → s.abt.timedOut = false → s.abt.suspended = false → s.roleFits = true → s.linesFitRole = true →
    x ≠ s.cfg.escape →
      (s.xfer.holdValid = false → s.sched = [] :: ts →
        exec (.literal x) s = .next { s with
          xfer := { s.xfer with codec := .normal, seenFirst := true, holdByte := x, holdValid := true }, sched := ts }
        ∧ exec .escEsc s = .next { s with
          xfer := { s.xfer with codec := .normal, seenFirst := true, holdByte := s.cfg.escape, holdValid := true }
          sched := ts })
      ∧ (s.xfer.holdValid = true → s.inp.lines.nrfd = false → s.inp.lines.ndac = true → s.out.eoi = false →
          s.sched = quietTurns 5 →
        (∃ t, exec (.literal x) s = .next t
          ∧ t.out = { s.out.sourced s.xfer.holdByte with dav := true, eoi := false })
        ∧ ∃ t, exec .escEsc s = .next t
          ∧ t.out = { s.out.sourced s.xfer.holdByte with dav := true, eoi := false })
      ∧ (s.xfer.holdValid = true → s.inp.lines.nrfd = false → s.inp.lines.ndac = true → i.lines.ndac = false →
          s.sched = quietTurns (5 + n) ++ [Event.inputs i] :: (quietTurns 3 ++ ts) →
        exec (.literal x) s = .next { s with
          xfer := { s.xfer with codec := .normal, seenFirst := true, holdByte := x }
          out := s.out.sourced s.xfer.holdByte
          tmo := { s.tmo with byteCtr := 0#16, useFirst := false }
          inp := i
          sched := ts }
        ∧ exec .escEsc s = .next { s with
          xfer := { s.xfer with codec := .normal, seenFirst := true, holdByte := s.cfg.escape }
          out := s.out.sourced s.xfer.holdByte
          tmo := { s.tmo with byteCtr := 0#16, useFirst := false }
          inp := i
          sched := ts })

/-- `ESCAPE BLOCK_END` (R144, R190 B4, R192): an empty block is acknowledged at once; else the held byte goes out, with
EOI while data-valid is asserted if the policy says so, and the block is acknowledged. -/
def Obligations.BlockEndCompletes : Prop :=
  ∀ (s : State) (i : Inputs) (n : Nat) (ts : List Turn),
    s.cfg.ok = true → s.pos = .item → s.canSend = true → s.abt.timedOut = false →
    s.inv = true →
      (s.xfer.holdValid = false → s.sched = quietTurns 4 ++ ts →
        exec .escEnd s = .next
          (({ s with xfer := { s.xfer with codec := .normal, blockDone := true } }.sent [s.cfg.ack]).ended ts))
      ∧ (s.xfer.holdValid = true → s.inp.lines.nrfd = false → s.inp.lines.ndac = true → s.sched = quietTurns 5 →
        ∃ t, exec .escEnd s = .next t ∧
          t.out = { s.out.sourced s.xfer.holdByte with dav := true, eoi := decide (s.sess.writeMode.toNat < 4) })
      ∧ (s.xfer.holdValid = true → s.inp.lines.nrfd = false → s.inp.lines.ndac = true → i.lines.ndac = false →
          i.txFull = false → s.sched = quietTurns (5 + n) ++ [Event.inputs i] :: (quietTurns 6 ++ ts) →
        exec .escEnd s = .next
          (({ s with
              xfer := { s.xfer with codec := .normal, blockDone := true, holdValid := false }
              out := s.out.sourced s.xfer.holdByte
              inp := i }.sent [s.cfg.ack]).ended ts))

/-- `ESCAPE CHECKPOINT` after a payload byte (R145): one acknowledgment, and the same block goes on. -/
def Obligations.CheckpointCompletes : Prop :=
  ∀ (s : State) (ts : List Turn),
    s.cfg.ok = true → s.pos = .item → s.canSend = true → s.xfer.seenFirst = true → s.sched = [] :: ts →
      exec .escChk s = .next
        ({ s with xfer := { s.xfer with codec := .normal }, sched := ts }.sent [s.cfg.checkpointAck])

/-- Violations (R126, R141 rows 6 and 7, R146, R193): `NAK`, the block is over, no line moves, no bus reset. -/
def Obligations.ViolationsComplete : Prop :=
  ∀ (s : State) (x : Byte) (ts : List Turn),
    s.cfg.ok = true → s.pos = .item → s.canSend = true → s.sched = quietTurns 4 ++ ts →
      let fin := (({ s with xfer := { s.xfer with codec := .normal, blockDone := true } }.sent [s.cfg.nak]).ended ts)
      exec .escStart s = .next fin
      ∧ (x ≠ s.cfg.escape → x ≠ s.cfg.blockEnd → x ≠ s.cfg.checkpoint → x ≠ s.cfg.blockStart →
          exec (.escOther x) s = .next fin)
      ∧ (s.xfer.seenFirst = false → exec .escChk s = .next fin)

/-- Items in the drain (R266): payload and checkpoints are discarded without a word; the end marker or a violation ends
the drain and the command. -/
def Obligations.DrainItems : Prop :=
  ∀ (s : State) (x : Byte) (ts : List Turn), s.cfg.ok = true → s.pos = .drain → s.abt.suspended = false →
    (x ≠ s.cfg.escape →
      exec (.literal x) s = .next { s with xfer := { s.xfer with codec := .normal, seenFirst := true } })
    ∧ exec .escEsc s = .next { s with xfer := { s.xfer with codec := .normal, seenFirst := true } }
    ∧ (s.xfer.seenFirst = true → exec .escChk s = .next { s with xfer := { s.xfer with codec := .normal } })
    ∧ (s.sched = [] :: ts →
        let done : State := { s with xfer := { s.xfer with codec := .normal, blockDone := true } }
        let fin : State := { done.cycleStart with sched := ts }
        exec .escEnd s = .next fin ∧ exec .escStart s = .next fin
        ∧ (s.xfer.seenFirst = false → exec .escChk s = .next fin)
        ∧ (x ∉ [s.cfg.escape, s.cfg.blockEnd, s.cfg.checkpoint] → exec (.escOther x) s = .next fin))

/-- `?` (R200, R202, R285): whatever a talker sends, with EOI on its last byte, reaches the host as one framed block,
every byte once and in order, followed by `ACK`; CORE is left a listener. -/
def Obligations.ReceiveBlockDelivers : Prop :=
  ∀ (s : State) (i : Inputs) (p : List Byte) (ts : List Turn),
    s.canSend = true → s.linesFitRole = true → i.restful = true → p ≠ [] →
    s.sched = quietTurns (s.beginning + 5) ++ talkerTurns s.cfg i p ++ quietTurns 6 ++ ts →
      exec .recvBlk s = .next
        (({ s.poweredUp.onBus .listener s.out.listening with
            xfer := { s.xfer with dir := .receive }
            inp := i }.sent (encodeBlock s.cfg p ++ [s.cfg.ack])).ended ts)

/-- `?` with no talker (R291 (a), R322 row 5): after as many ticks as the bound of the first byte, the empty block and
the code 9, no bus reset, CORE still a listener. -/
def Obligations.ReceiveBlockWithoutTalker : Prop :=
  ∀ (s : State) (n : Nat) (ts : List Turn),
    s.canSend = true → s.linesFitRole = true → s.tmo.tickArmed = true →
    (s.sess.role = .listener → s.out.ndac = true) → s.inp.restful = true →
    n = (if s.tmo.firstByteTimeout ≠ 0#16 then s.tmo.firstByteTimeout.toNat else s.tmo.byteTimeout.toNat) → 0 < n →
    s.sched = quietTurns (s.beginning + 6) ++ List.replicate n Event.tick :: (quietTurns 7 ++ ts) →
      exec .recvBlk s = .next
        (({ s.poweredUp.onBus .listener s.out.listening with xfer := { s.xfer with dir := .receive } }.sent
          (encodeBlock s.cfg [] ++ [0x09#8])).ended ts)

/-- `B` (R210, R211, R286): the byte as it is and `ACK`; or, when no byte comes before the bound, the null byte and
`ACK`, without a bus reset. The host's cancel is at any level throughout: `B` polls on for the byte (`k` polls more
than the least) and for the release of data-valid (`j` more) whether or not it is held (R210, R332). -/
def Obligations.ReceiveByteCompletes : Prop :=
  ∀ (s : State) (k j : Nat) (ts : List Turn), s.canSend = true → s.linesFitRole = true →
    (k + j = 0 ∨ s.abt.timedOut = false) → (k = 0 ∨ s.inp.lines.dav = false) →
    (∀ (i : Inputs) (b : Byte) (e : Bool), i.lines.dav = false → i.txFull = false →
      s.sched = quietTurns (s.beginning + 3 + k) ++ [Event.inputs (i.offering b e)] :: (quietTurns (4 + j) ++
        [Event.inputs i] :: (quietTurns 6 ++ ts)) →
      exec .recvByte s = .next
        (({ s.poweredUp.onBus .listener s.out.listening with inp := i }.sent [b, s.cfg.ack]).ended ts))
    ∧ (∀ n : Nat, s.tmo.tickArmed = true → (s.sess.role = .listener → s.out.ndac = true) →
      s.inp.lines.dav = false →
      n = (if s.tmo.firstByteTimeout ≠ 0#16 then s.tmo.firstByteTimeout.toNat else s.tmo.byteTimeout.toNat) → 0 < n →
      s.sched = quietTurns (s.beginning + 3 + k) ++ List.replicate n Event.tick :: (quietTurns 6 ++ ts) →
      exec .recvByte s = .next
        (((s.poweredUp.onBus .listener s.out.listening).sent [s.cfg.nullByte, s.cfg.ack]).ended ts))

/-- Handshake timeouts of `C` and `c` (R180 S2, S3, S6, R322 rows 1, 2 and 4, R326): each wait fails with its own code;
the bus reset comes first; every line is released. -/
def Obligations.SourceTimeouts : Prop :=
  ∀ (s : State) (st : SrcStep) (b code : Byte) (release : Bool) (ts : List Turn),
    s.pos = .src st b false (.command release) → s.abt.timedOut = true → s.canSend = true →
    s.disp.curCmd ≠ some .sendBlk →
    (st = .s2 ∧ s.nrfdIn = false ∧ s.ndacIn = false ∧ code = 0x08#8) ∨ (st = .s3 ∧ s.nrfdIn = true ∧ code = 0x01#8)
      ∨ (st = .s6 ∧ s.ndacIn = true ∧ code = 0x02#8) →
    s.sched = quietTurns 10 ++ ts →
      step s = .next (((s.onBus .idle s.out.released).sent [code]).ended ts)

/-- The same inside a block (R190, R322 rows 1, 2 and 4 with the column "Drain after", R266): after the bus reset and
the code CORE drains the block while its end marker has not been decoded; after the handshake of the last byte, B4, the
held byte is dropped and there is nothing to drain. -/
def Obligations.BlockTimeoutDrains : Prop :=
  ∀ (s : State) (st : SrcStep) (b code : Byte) (eoi : Bool) (r : Reason) (ts : List Turn),
    s.abt.timedOut = true → s.canSend = true → s.disp.curCmd = some .sendBlk →
    (st = .s2 ∧ s.nrfdIn = false ∧ s.ndacIn = false ∧ code = 0x08#8 ∧ r = .noListener)
      ∨ (st = .s3 ∧ s.nrfdIn = true ∧ code = 0x01#8 ∧ r = .notReady)
      ∨ (st = .s6 ∧ s.ndacIn = true ∧ code = 0x02#8 ∧ r = .notAccepted) →
      (∀ next : Byte, s.pos = .src st b eoi (.data next) → s.xfer.blockDone = false →
        s.sched = quietTurns 8 ++ ts →
          step s = .next ({ (s.onBus .idle s.out.released).endOp with
            abt := { s.abt with failReason := some r }
            disp := { s.disp with phase := .cleanup }
            pos := .drain
            sched := ts }.sent [code]))
      ∧ (s.pos = .src st b eoi .last → s.xfer.blockDone = true → s.sched = quietTurns 9 ++ ts →
          step s = .next (({ s.onBus .idle s.out.released with
            xfer := { s.xfer with holdValid := false } }.sent [code]).ended ts))

/-- The waits of the acceptor when they end otherwise than `Ok` (R200, R203, R204, R210, R322 rows 3 and 5): the block
is always closed; data-valid held too long gives code 3 after a bus reset; no data gives code 9 and a cancel `ACK`,
both leaving the role. -/
def Obligations.AcceptorWaitsEnd : Prop :=
  ∀ (s : State) (eoi : Bool) (ts : List Turn), s.canSend = true → s.disp.curCmd ≠ some .sendBlk →
    (s.pos = .l7 eoi → s.davIn = true → s.abt.timedOut = true → s.sched = quietTurns 11 ++ ts →
      step s = .next (((s.onBus .idle s.out.released).sent (encEnd s.cfg ++ [0x03#8])).ended ts))
    ∧ (s.pos = .y7 → s.davIn = true → s.abt.timedOut = true → s.sched = quietTurns 9 ++ ts →
      step s = .next (((s.onBus .idle s.out.released).sent [0x03#8]).ended ts))
    ∧ (s.pos = .l2 → s.davIn = false → s.abt.timedOut = true → s.sched = quietTurns 8 ++ ts →
      step s = .next (({ s with out := { s.out with nrfd := true } }.sent (encEnd s.cfg ++ [0x09#8])).ended ts))
    ∧ (s.pos = .l2 → s.davIn = false → s.abt.timedOut = false → s.inp.hostCancel = true →
        s.sched = quietTurns 8 ++ ts →
      step s = .next (({ s with out := { s.out with nrfd := true } }.sent (encEnd s.cfg ++ [s.cfg.ack])).ended ts))

/-! ## Progress -/

/-- R97. A foreground step that leaves the position is the poll of a host channel that is blocked, of a resync that has
not met its terminator, or of a bus wait with nothing to end it; a blocked poll changes nothing (but for the
service-request poll of R73 at the idle leader). And with the tick weakly fair, and nothing assumed of the host and the
bus, a bus wait under an applicable bound ends, whatever else the endless turns hold. -/
def Obligations.ForwardProgress : Prop :=
  (∀ s : State, s.pos.isFetch = false → (fg s).pos = s.pos → s.abt.suspended = false ∧
    ((∃ b rest k, s.pos = .put (b :: rest) k ∧ s.inp.txFull = true)
      ∨ (s.pos = .resync ∧ s.rx.head? ≠ some s.cfg.term)
      ∨ (s.pos.waits = true ∧ s.abt.timedOut = false)))
  ∧ (∀ s : State, s.abt.suspended = false →
      (∀ b rest k, s.pos = .put (b :: rest) k → s.inp.txFull = true → fg s = s)
      ∧ (s.rx = [] → ¬(s.disp.phase = .awaitLeader ∧ s.disp.leaderIdx = 0) →
          (s.pos = .resync → fg s = s) ∧ fetchPoll s = .more s))
  ∧ (∀ (turns : Nat → Turn) (s : State),
      s.pos.waits = true → s.sched = [] → s.tmo.tickArmed = true → s.tmo.opActive = true →
      (s.tmo.byteBound ≠ none ∨ s.tmo.totalBound ≠ none) → TickFair turns s →
        ∃ n, (execution turns s n).pos ≠ s.pos)
end

