-- ==== Sys2Proof/Laws/State.lean ====
section
/-! SUPPORT. The fields of the state after each named update: one lemma per field per update, true by rfl. -/

namespace Sys2Proof.Machine

@[simp] theorem State.goto_cfg (s : State) (p : Pos) : (s.goto p).cfg = s.cfg := rfl
@[simp] theorem State.goto_sess (s : State) (p : Pos) : (s.goto p).sess = s.sess := rfl
@[simp] theorem State.goto_tmo (s : State) (p : Pos) : (s.goto p).tmo = s.tmo := rfl
@[simp] theorem State.goto_abt (s : State) (p : Pos) : (s.goto p).abt = s.abt := rfl
@[simp] theorem State.goto_xfer (s : State) (p : Pos) : (s.goto p).xfer = s.xfer := rfl
@[simp] theorem State.goto_disp (s : State) (p : Pos) : (s.goto p).disp = s.disp := rfl
@[simp] theorem State.goto_out (s : State) (p : Pos) : (s.goto p).out = s.out := rfl
@[simp] theorem State.goto_pos (s : State) (p : Pos) : (s.goto p).pos = p := rfl
@[simp] theorem State.goto_rx (s : State) (p : Pos) : (s.goto p).rx = s.rx := rfl
@[simp] theorem State.goto_tx (s : State) (p : Pos) : (s.goto p).tx = s.tx := rfl
@[simp] theorem State.goto_inp (s : State) (p : Pos) : (s.goto p).inp = s.inp := rfl
@[simp] theorem State.goto_sched (s : State) (p : Pos) : (s.goto p).sched = s.sched := rfl

@[simp] theorem State.setPhase_cfg (s : State) (p : Phase) : (s.setPhase p).cfg = s.cfg := rfl
@[simp] theorem State.setPhase_sess (s : State) (p : Phase) : (s.setPhase p).sess = s.sess := rfl
@[simp] theorem State.setPhase_tmo (s : State) (p : Phase) : (s.setPhase p).tmo = s.tmo := rfl
@[simp] theorem State.setPhase_abt (s : State) (p : Phase) : (s.setPhase p).abt = s.abt := rfl
@[simp] theorem State.setPhase_xfer (s : State) (p : Phase) : (s.setPhase p).xfer = s.xfer := rfl
@[simp] theorem State.setPhase_disp (s : State) (p : Phase) : (s.setPhase p).disp = { s.disp with phase := p } := rfl
@[simp] theorem State.setPhase_out (s : State) (p : Phase) : (s.setPhase p).out = s.out := rfl
@[simp] theorem State.setPhase_pos (s : State) (p : Phase) : (s.setPhase p).pos = s.pos := rfl
@[simp] theorem State.setPhase_rx (s : State) (p : Phase) : (s.setPhase p).rx = s.rx := rfl
@[simp] theorem State.setPhase_tx (s : State) (p : Phase) : (s.setPhase p).tx = s.tx := rfl
@[simp] theorem State.setPhase_inp (s : State) (p : Phase) : (s.setPhase p).inp = s.inp := rfl
@[simp] theorem State.setPhase_sched (s : State) (p : Phase) : (s.setPhase p).sched = s.sched := rfl

@[simp] theorem State.setRole_cfg (s : State) (r : Role) : (s.setRole r).cfg = s.cfg := rfl
@[simp] theorem State.setRole_sess (s : State) (r : Role) : (s.setRole r).sess = { s.sess with role := r } := rfl
@[simp] theorem State.setRole_tmo (s : State) (r : Role) : (s.setRole r).tmo = s.tmo := rfl
@[simp] theorem State.setRole_abt (s : State) (r : Role) : (s.setRole r).abt = s.abt := rfl
@[simp] theorem State.setRole_xfer (s : State) (r : Role) : (s.setRole r).xfer = s.xfer := rfl
@[simp] theorem State.setRole_disp (s : State) (r : Role) : (s.setRole r).disp = s.disp := rfl
@[simp] theorem State.setRole_out (s : State) (r : Role) : (s.setRole r).out = s.out := rfl
@[simp] theorem State.setRole_pos (s : State) (r : Role) : (s.setRole r).pos = s.pos := rfl
@[simp] theorem State.setRole_rx (s : State) (r : Role) : (s.setRole r).rx = s.rx := rfl
@[simp] theorem State.setRole_tx (s : State) (r : Role) : (s.setRole r).tx = s.tx := rfl
@[simp] theorem State.setRole_inp (s : State) (r : Role) : (s.setRole r).inp = s.inp := rfl
@[simp] theorem State.setRole_sched (s : State) (r : Role) : (s.setRole r).sched = s.sched := rfl

@[simp] theorem State.drive_cfg (s : State) (f : BusOut → BusOut) : (s.drive f).cfg = s.cfg := rfl
@[simp] theorem State.drive_sess (s : State) (f : BusOut → BusOut) : (s.drive f).sess = s.sess := rfl
@[simp] theorem State.drive_tmo (s : State) (f : BusOut → BusOut) : (s.drive f).tmo = s.tmo := rfl
@[simp] theorem State.drive_abt (s : State) (f : BusOut → BusOut) : (s.drive f).abt = s.abt := rfl
@[simp] theorem State.drive_xfer (s : State) (f : BusOut → BusOut) : (s.drive f).xfer = s.xfer := rfl
@[simp] theorem State.drive_disp (s : State) (f : BusOut → BusOut) : (s.drive f).disp = s.disp := rfl
@[simp] theorem State.drive_out (s : State) (f : BusOut → BusOut) : (s.drive f).out = f s.out := rfl
@[simp] theorem State.drive_pos (s : State) (f : BusOut → BusOut) : (s.drive f).pos = s.pos := rfl
@[simp] theorem State.drive_rx (s : State) (f : BusOut → BusOut) : (s.drive f).rx = s.rx := rfl
@[simp] theorem State.drive_tx (s : State) (f : BusOut → BusOut) : (s.drive f).tx = s.tx := rfl
@[simp] theorem State.drive_inp (s : State) (f : BusOut → BusOut) : (s.drive f).inp = s.inp := rfl
@[simp] theorem State.drive_sched (s : State) (f : BusOut → BusOut) : (s.drive f).sched = s.sched := rfl

@[simp] theorem State.setXfer_cfg (s : State) (f : Transfer → Transfer) : (s.setXfer f).cfg = s.cfg := rfl
@[simp] theorem State.setXfer_sess (s : State) (f : Transfer → Transfer) : (s.setXfer f).sess = s.sess := rfl
@[simp] theorem State.setXfer_tmo (s : State) (f : Transfer → Transfer) : (s.setXfer f).tmo = s.tmo := rfl
@[simp] theorem State.setXfer_abt (s : State) (f : Transfer → Transfer) : (s.setXfer f).abt = s.abt := rfl
@[simp] theorem State.setXfer_xfer (s : State) (f : Transfer → Transfer) : (s.setXfer f).xfer = f s.xfer := rfl
@[simp] theorem State.setXfer_disp (s : State) (f : Transfer → Transfer) : (s.setXfer f).disp = s.disp := rfl
@[simp] theorem State.setXfer_out (s : State) (f : Transfer → Transfer) : (s.setXfer f).out = s.out := rfl
@[simp] theorem State.setXfer_pos (s : State) (f : Transfer → Transfer) : (s.setXfer f).pos = s.pos := rfl
@[simp] theorem State.setXfer_rx (s : State) (f : Transfer → Transfer) : (s.setXfer f).rx = s.rx := rfl
@[simp] theorem State.setXfer_tx (s : State) (f : Transfer → Transfer) : (s.setXfer f).tx = s.tx := rfl
@[simp] theorem State.setXfer_inp (s : State) (f : Transfer → Transfer) : (s.setXfer f).inp = s.inp := rfl
@[simp] theorem State.setXfer_sched (s : State) (f : Transfer → Transfer) : (s.setXfer f).sched = s.sched := rfl

@[simp] theorem State.push_cfg (s : State) (b : Byte) : (s.push b).cfg = s.cfg := rfl
@[simp] theorem State.push_sess (s : State) (b : Byte) : (s.push b).sess = s.sess := rfl
@[simp] theorem State.push_tmo (s : State) (b : Byte) : (s.push b).tmo = s.tmo := rfl
@[simp] theorem State.push_abt (s : State) (b : Byte) : (s.push b).abt = s.abt := rfl
@[simp] theorem State.push_xfer (s : State) (b : Byte) : (s.push b).xfer = s.xfer := rfl
@[simp] theorem State.push_disp (s : State) (b : Byte) : (s.push b).disp = s.disp := rfl
@[simp] theorem State.push_out (s : State) (b : Byte) : (s.push b).out = s.out := rfl
@[simp] theorem State.push_pos (s : State) (b : Byte) : (s.push b).pos = s.pos := rfl
@[simp] theorem State.push_rx (s : State) (b : Byte) : (s.push b).rx = s.rx := rfl
@[simp] theorem State.push_tx (s : State) (b : Byte) : (s.push b).tx = s.tx ++ [b] := rfl
@[simp] theorem State.push_inp (s : State) (b : Byte) : (s.push b).inp = s.inp := rfl
@[simp] theorem State.push_sched (s : State) (b : Byte) : (s.push b).sched = s.sched := rfl

@[simp] theorem State.setPowered_cfg (s : State) (v : Bool) : (s.setPowered v).cfg = s.cfg := rfl
@[simp] theorem State.setPowered_sess (s : State) (v : Bool) : (s.setPowered v).sess = { s.sess with powered := v } := rfl
@[simp] theorem State.setPowered_tmo (s : State) (v : Bool) : (s.setPowered v).tmo = s.tmo := rfl
@[simp] theorem State.setPowered_abt (s : State) (v : Bool) : (s.setPowered v).abt = s.abt := rfl
@[simp] theorem State.setPowered_xfer (s : State) (v : Bool) : (s.setPowered v).xfer = s.xfer := rfl
@[simp] theorem State.setPowered_disp (s : State) (v : Bool) : (s.setPowered v).disp = s.disp := rfl
@[simp] theorem State.setPowered_out (s : State) (v : Bool) : (s.setPowered v).out = s.out := rfl
@[simp] theorem State.setPowered_pos (s : State) (v : Bool) : (s.setPowered v).pos = s.pos := rfl
@[simp] theorem State.setPowered_rx (s : State) (v : Bool) : (s.setPowered v).rx = s.rx := rfl
@[simp] theorem State.setPowered_tx (s : State) (v : Bool) : (s.setPowered v).tx = s.tx := rfl
@[simp] theorem State.setPowered_inp (s : State) (v : Bool) : (s.setPowered v).inp = s.inp := rfl
@[simp] theorem State.setPowered_sched (s : State) (v : Bool) : (s.setPowered v).sched = s.sched := rfl

@[simp] theorem State.stamp_cfg (s : State) (r : Option Reason) : (s.stamp r).cfg = s.cfg := rfl
@[simp] theorem State.stamp_sess (s : State) (r : Option Reason) : (s.stamp r).sess = s.sess := rfl
@[simp] theorem State.stamp_tmo (s : State) (r : Option Reason) : (s.stamp r).tmo = s.tmo := rfl
@[simp] theorem State.stamp_abt (s : State) (r : Option Reason) : (s.stamp r).abt = { s.abt with failReason := r } := rfl
@[simp] theorem State.stamp_xfer (s : State) (r : Option Reason) : (s.stamp r).xfer = s.xfer := rfl
@[simp] theorem State.stamp_disp (s : State) (r : Option Reason) : (s.stamp r).disp = s.disp := rfl
@[simp] theorem State.stamp_out (s : State) (r : Option Reason) : (s.stamp r).out = s.out := rfl
@[simp] theorem State.stamp_pos (s : State) (r : Option Reason) : (s.stamp r).pos = s.pos := rfl
@[simp] theorem State.stamp_rx (s : State) (r : Option Reason) : (s.stamp r).rx = s.rx := rfl
@[simp] theorem State.stamp_tx (s : State) (r : Option Reason) : (s.stamp r).tx = s.tx := rfl
@[simp] theorem State.stamp_inp (s : State) (r : Option Reason) : (s.stamp r).inp = s.inp := rfl
@[simp] theorem State.stamp_sched (s : State) (r : Option Reason) : (s.stamp r).sched = s.sched := rfl

@[simp] theorem State.beginOp_cfg (s : State) : s.beginOp.cfg = s.cfg := rfl
@[simp] theorem State.beginOp_sess (s : State) : s.beginOp.sess = s.sess := rfl
@[simp] theorem State.beginOp_tmo (s : State) : s.beginOp.tmo = { s.tmo with byteCtr := 0#16, totalCtr := 0#16, useFirst := true, opActive := true } := rfl
@[simp] theorem State.beginOp_abt (s : State) : s.beginOp.abt = s.abt := rfl
@[simp] theorem State.beginOp_xfer (s : State) : s.beginOp.xfer = s.xfer := rfl
@[simp] theorem State.beginOp_disp (s : State) : s.beginOp.disp = s.disp := rfl
@[simp] theorem State.beginOp_out (s : State) : s.beginOp.out = s.out := rfl
@[simp] theorem State.beginOp_pos (s : State) : s.beginOp.pos = s.pos := rfl
@[simp] theorem State.beginOp_rx (s : State) : s.beginOp.rx = s.rx := rfl
@[simp] theorem State.beginOp_tx (s : State) : s.beginOp.tx = s.tx := rfl
@[simp] theorem State.beginOp_inp (s : State) : s.beginOp.inp = s.inp := rfl
@[simp] theorem State.beginOp_sched (s : State) : s.beginOp.sched = s.sched := rfl

@[simp] theorem State.byteDone_cfg (s : State) : s.byteDone.cfg = s.cfg := rfl
@[simp] theorem State.byteDone_sess (s : State) : s.byteDone.sess = s.sess := rfl
@[simp] theorem State.byteDone_tmo (s : State) : s.byteDone.tmo = { s.tmo with byteCtr := 0#16, useFirst := false } := rfl
@[simp] theorem State.byteDone_abt (s : State) : s.byteDone.abt = s.abt := rfl
@[simp] theorem State.byteDone_xfer (s : State) : s.byteDone.xfer = s.xfer := rfl
@[simp] theorem State.byteDone_disp (s : State) : s.byteDone.disp = s.disp := rfl
@[simp] theorem State.byteDone_out (s : State) : s.byteDone.out = s.out := rfl
@[simp] theorem State.byteDone_pos (s : State) : s.byteDone.pos = s.pos := rfl
@[simp] theorem State.byteDone_rx (s : State) : s.byteDone.rx = s.rx := rfl
@[simp] theorem State.byteDone_tx (s : State) : s.byteDone.tx = s.tx := rfl
@[simp] theorem State.byteDone_inp (s : State) : s.byteDone.inp = s.inp := rfl
@[simp] theorem State.byteDone_sched (s : State) : s.byteDone.sched = s.sched := rfl

@[simp] theorem State.endOp_cfg (s : State) : s.endOp.cfg = s.cfg := rfl
@[simp] theorem State.endOp_sess (s : State) : s.endOp.sess = s.sess := rfl
@[simp] theorem State.endOp_tmo (s : State) : s.endOp.tmo = { s.tmo with opActive := false, useFirst := false, byteCtr := 0#16, totalCtr := 0#16 } := rfl
@[simp] theorem State.endOp_abt (s : State) : s.endOp.abt = s.abt := rfl
@[simp] theorem State.endOp_xfer (s : State) : s.endOp.xfer = s.xfer := rfl
@[simp] theorem State.endOp_disp (s : State) : s.endOp.disp = s.disp := rfl
@[simp] theorem State.endOp_out (s : State) : s.endOp.out = s.out := rfl
@[simp] theorem State.endOp_pos (s : State) : s.endOp.pos = s.pos := rfl
@[simp] theorem State.endOp_rx (s : State) : s.endOp.rx = s.rx := rfl
@[simp] theorem State.endOp_tx (s : State) : s.endOp.tx = s.tx := rfl
@[simp] theorem State.endOp_inp (s : State) : s.endOp.inp = s.inp := rfl
@[simp] theorem State.endOp_sched (s : State) : s.endOp.sched = s.sched := rfl

@[simp] theorem State.assumeTalker_cfg (s : State) : s.assumeTalker.cfg = s.cfg := rfl
@[simp] theorem State.assumeTalker_sess (s : State) : s.assumeTalker.sess = { s.sess with role := .talker } := rfl
@[simp] theorem State.assumeTalker_tmo (s : State) : s.assumeTalker.tmo = s.tmo := rfl
@[simp] theorem State.assumeTalker_abt (s : State) : s.assumeTalker.abt = s.abt := rfl
@[simp] theorem State.assumeTalker_xfer (s : State) : s.assumeTalker.xfer = s.xfer := rfl
@[simp] theorem State.assumeTalker_disp (s : State) : s.assumeTalker.disp = s.disp := rfl
@[simp] theorem State.assumeTalker_out (s : State) : s.assumeTalker.out = { s.out with nrfd := false, ndac := false } := rfl
@[simp] theorem State.assumeTalker_pos (s : State) : s.assumeTalker.pos = s.pos := rfl
@[simp] theorem State.assumeTalker_rx (s : State) : s.assumeTalker.rx = s.rx := rfl
@[simp] theorem State.assumeTalker_tx (s : State) : s.assumeTalker.tx = s.tx := rfl
@[simp] theorem State.assumeTalker_inp (s : State) : s.assumeTalker.inp = s.inp := rfl
@[simp] theorem State.assumeTalker_sched (s : State) : s.assumeTalker.sched = s.sched := rfl

@[simp] theorem State.assumeListener_cfg (s : State) : s.assumeListener.cfg = s.cfg := rfl
@[simp] theorem State.assumeListener_sess (s : State) : s.assumeListener.sess = { s.sess with role := .listener } := rfl
@[simp] theorem State.assumeListener_tmo (s : State) : s.assumeListener.tmo = s.tmo := rfl
@[simp] theorem State.assumeListener_abt (s : State) : s.assumeListener.abt = s.abt := rfl
@[simp] theorem State.assumeListener_xfer (s : State) : s.assumeListener.xfer = s.xfer := rfl
@[simp] theorem State.assumeListener_disp (s : State) : s.assumeListener.disp = s.disp := rfl
@[simp] theorem State.assumeListener_out (s : State) : s.assumeListener.out = { s.out with dav := false, eoi := false, dioOe := false, nrfd := true, ndac := true } := rfl
@[simp] theorem State.assumeListener_pos (s : State) : s.assumeListener.pos = s.pos := rfl
@[simp] theorem State.assumeListener_rx (s : State) : s.assumeListener.rx = s.rx := rfl
@[simp] theorem State.assumeListener_tx (s : State) : s.assumeListener.tx = s.tx := rfl
@[simp] theorem State.assumeListener_inp (s : State) : s.assumeListener.inp = s.inp := rfl
@[simp] theorem State.assumeListener_sched (s : State) : s.assumeListener.sched = s.sched := rfl

@[simp] theorem State.releaseBus_cfg (s : State) : s.releaseBus.cfg = s.cfg := rfl
@[simp] theorem State.releaseBus_sess (s : State) : s.releaseBus.sess = { s.sess with role := .idle } := rfl
@[simp] theorem State.releaseBus_tmo (s : State) : s.releaseBus.tmo = s.tmo := rfl
@[simp] theorem State.releaseBus_abt (s : State) : s.releaseBus.abt = s.abt := rfl
@[simp] theorem State.releaseBus_xfer (s : State) : s.releaseBus.xfer = s.xfer := rfl
@[simp] theorem State.releaseBus_disp (s : State) : s.releaseBus.disp = s.disp := rfl
@[simp] theorem State.releaseBus_out (s : State) : s.releaseBus.out = { s.out with dav := false, eoi := false, nrfd := false, ndac := false, dioOe := false, atn := false } := rfl
@[simp] theorem State.releaseBus_pos (s : State) : s.releaseBus.pos = s.pos := rfl
@[simp] theorem State.releaseBus_rx (s : State) : s.releaseBus.rx = s.rx := rfl
@[simp] theorem State.releaseBus_tx (s : State) : s.releaseBus.tx = s.tx := rfl
@[simp] theorem State.releaseBus_inp (s : State) : s.releaseBus.inp = s.inp := rfl
@[simp] theorem State.releaseBus_sched (s : State) : s.releaseBus.sched = s.sched := rfl

@[simp] theorem State.powerOn_cfg (s : State) : s.powerOn.cfg = s.cfg := rfl
@[simp] theorem State.powerOn_sess (s : State) : s.powerOn.sess = { s.sess with powered := true, role := .idle } := rfl
@[simp] theorem State.powerOn_tmo (s : State) : s.powerOn.tmo = s.tmo := rfl
@[simp] theorem State.powerOn_abt (s : State) : s.powerOn.abt = s.abt := rfl
@[simp] theorem State.powerOn_xfer (s : State) : s.powerOn.xfer = s.xfer := rfl
@[simp] theorem State.powerOn_disp (s : State) : s.powerOn.disp = s.disp := rfl
@[simp] theorem State.powerOn_out (s : State) : s.powerOn.out = s.out := rfl
@[simp] theorem State.powerOn_pos (s : State) : s.powerOn.pos = s.pos := rfl
@[simp] theorem State.powerOn_rx (s : State) : s.powerOn.rx = s.rx := rfl
@[simp] theorem State.powerOn_tx (s : State) : s.powerOn.tx = s.tx := rfl
@[simp] theorem State.powerOn_inp (s : State) : s.powerOn.inp = s.inp := rfl
@[simp] theorem State.powerOn_sched (s : State) : s.powerOn.sched = s.sched := rfl

@[simp] theorem State.toCleanup_cfg (s : State) : s.toCleanup.cfg = s.cfg := rfl
@[simp] theorem State.toCleanup_sess (s : State) : s.toCleanup.sess = s.sess := rfl
@[simp] theorem State.toCleanup_tmo (s : State) : s.toCleanup.tmo = s.tmo := rfl
@[simp] theorem State.toCleanup_abt (s : State) : s.toCleanup.abt = s.abt := rfl
@[simp] theorem State.toCleanup_xfer (s : State) : s.toCleanup.xfer = s.xfer := rfl
@[simp] theorem State.toCleanup_disp (s : State) : s.toCleanup.disp = { s.disp with phase := .cleanup } := rfl
@[simp] theorem State.toCleanup_out (s : State) : s.toCleanup.out = s.out := rfl
@[simp] theorem State.toCleanup_pos (s : State) : s.toCleanup.pos = .k1 := rfl
@[simp] theorem State.toCleanup_rx (s : State) : s.toCleanup.rx = s.rx := rfl
@[simp] theorem State.toCleanup_tx (s : State) : s.toCleanup.tx = s.tx := rfl
@[simp] theorem State.toCleanup_inp (s : State) : s.toCleanup.inp = s.inp := rfl
@[simp] theorem State.toCleanup_sched (s : State) : s.toCleanup.sched = s.sched := rfl

@[simp] theorem State.cycleStart_cfg (s : State) : s.cycleStart.cfg = s.cfg := rfl
@[simp] theorem State.cycleStart_sess (s : State) : s.cycleStart.sess = s.sess := rfl
@[simp] theorem State.cycleStart_tmo (s : State) : s.cycleStart.tmo = s.tmo := rfl
@[simp] theorem State.cycleStart_abt (s : State) : s.cycleStart.abt = { s.abt with timedOut := false, suspended := false, failReason := none } := rfl
@[simp] theorem State.cycleStart_xfer (s : State) : s.cycleStart.xfer = s.xfer := rfl
@[simp] theorem State.cycleStart_disp (s : State) : s.cycleStart.disp = { s.disp with cmdBuf := [], leaderIdx := 0, curCmd := none, phase := .awaitLeader } := rfl
@[simp] theorem State.cycleStart_out (s : State) : s.cycleStart.out = s.out := rfl
@[simp] theorem State.cycleStart_pos (s : State) : s.cycleStart.pos = .leader := rfl
@[simp] theorem State.cycleStart_rx (s : State) : s.cycleStart.rx = s.rx := rfl
@[simp] theorem State.cycleStart_tx (s : State) : s.cycleStart.tx = s.tx := rfl
@[simp] theorem State.cycleStart_inp (s : State) : s.cycleStart.inp = s.inp := rfl
@[simp] theorem State.cycleStart_sched (s : State) : s.cycleStart.sched = s.sched := rfl

@[simp] theorem State.sent_cfg (s : State) (bs : List Byte) : (s.sent bs).cfg = s.cfg := rfl
@[simp] theorem State.sent_sess (s : State) (bs : List Byte) : (s.sent bs).sess = s.sess := rfl
@[simp] theorem State.sent_tmo (s : State) (bs : List Byte) : (s.sent bs).tmo = s.tmo := rfl
@[simp] theorem State.sent_abt (s : State) (bs : List Byte) : (s.sent bs).abt = s.abt := rfl
@[simp] theorem State.sent_xfer (s : State) (bs : List Byte) : (s.sent bs).xfer = s.xfer := rfl
@[simp] theorem State.sent_disp (s : State) (bs : List Byte) : (s.sent bs).disp = s.disp := rfl
@[simp] theorem State.sent_out (s : State) (bs : List Byte) : (s.sent bs).out = s.out := rfl
@[simp] theorem State.sent_pos (s : State) (bs : List Byte) : (s.sent bs).pos = s.pos := rfl
@[simp] theorem State.sent_rx (s : State) (bs : List Byte) : (s.sent bs).rx = s.rx := rfl
@[simp] theorem State.sent_tx (s : State) (bs : List Byte) : (s.sent bs).tx = s.tx ++ bs := rfl
@[simp] theorem State.sent_inp (s : State) (bs : List Byte) : (s.sent bs).inp = s.inp := rfl
@[simp] theorem State.sent_sched (s : State) (bs : List Byte) : (s.sent bs).sched = s.sched := rfl

@[simp] theorem State.onBus_cfg (s : State) (r : Role) (o : BusOut) : (s.onBus r o).cfg = s.cfg := rfl
@[simp] theorem State.onBus_sess (s : State) (r : Role) (o : BusOut) : (s.onBus r o).sess = { s.sess with role := r } := rfl
@[simp] theorem State.onBus_tmo (s : State) (r : Role) (o : BusOut) : (s.onBus r o).tmo = s.tmo := rfl
@[simp] theorem State.onBus_abt (s : State) (r : Role) (o : BusOut) : (s.onBus r o).abt = s.abt := rfl
@[simp] theorem State.onBus_xfer (s : State) (r : Role) (o : BusOut) : (s.onBus r o).xfer = s.xfer := rfl
@[simp] theorem State.onBus_disp (s : State) (r : Role) (o : BusOut) : (s.onBus r o).disp = s.disp := rfl
@[simp] theorem State.onBus_out (s : State) (r : Role) (o : BusOut) : (s.onBus r o).out = o := rfl
@[simp] theorem State.onBus_pos (s : State) (r : Role) (o : BusOut) : (s.onBus r o).pos = s.pos := rfl
@[simp] theorem State.onBus_rx (s : State) (r : Role) (o : BusOut) : (s.onBus r o).rx = s.rx := rfl
@[simp] theorem State.onBus_tx (s : State) (r : Role) (o : BusOut) : (s.onBus r o).tx = s.tx := rfl
@[simp] theorem State.onBus_inp (s : State) (r : Role) (o : BusOut) : (s.onBus r o).inp = s.inp := rfl
@[simp] theorem State.onBus_sched (s : State) (r : Role) (o : BusOut) : (s.onBus r o).sched = s.sched := rfl

@[simp] theorem State.ended_cfg (s : State) (ts : List Turn) : (s.ended ts).cfg = s.cfg := rfl
@[simp] theorem State.ended_sess (s : State) (ts : List Turn) : (s.ended ts).sess = s.sess := rfl
@[simp] theorem State.ended_tmo (s : State) (ts : List Turn) : (s.ended ts).tmo = 
    { s.tmo with opActive := false, useFirst := false, byteCtr := 0#16, totalCtr := 0#16 } := rfl
@[simp] theorem State.ended_abt (s : State) (ts : List Turn) : (s.ended ts).abt = 
    { s.abt with timedOut := false, suspended := false, failReason := none } := rfl
@[simp] theorem State.ended_xfer (s : State) (ts : List Turn) : (s.ended ts).xfer = s.xfer := rfl
@[simp] theorem State.ended_disp (s : State) (ts : List Turn) : (s.ended ts).disp = 
    { s.disp with cmdBuf := [], leaderIdx := 0, curCmd := none, phase := .awaitLeader } := rfl
@[simp] theorem State.ended_out (s : State) (ts : List Turn) : (s.ended ts).out = s.out := rfl
@[simp] theorem State.ended_pos (s : State) (ts : List Turn) : (s.ended ts).pos = .leader := rfl
@[simp] theorem State.ended_rx (s : State) (ts : List Turn) : (s.ended ts).rx = s.rx := rfl
@[simp] theorem State.ended_tx (s : State) (ts : List Turn) : (s.ended ts).tx = s.tx := rfl
@[simp] theorem State.ended_inp (s : State) (ts : List Turn) : (s.ended ts).inp = s.inp := rfl
@[simp] theorem State.ended_sched (s : State) (ts : List Turn) : (s.ended ts).sched = ts := rfl

@[simp] theorem State.loadDefaults_cfg (s : State) : (s.loadDefaults).cfg = s.cfg := rfl
@[simp] theorem State.loadDefaults_sess (s : State) : (s.loadDefaults).sess = 
    { s.sess with
      role := .idle, renAsserted := s.cfg.resetRen, writeMode := s.cfg.resetWriteMode
      srqMonitor := s.cfg.resetSrqMonitor, debugMode := false } := rfl
@[simp] theorem State.loadDefaults_tmo (s : State) : (s.loadDefaults).tmo = 
    { s.tmo with
      byteTimeout := s.cfg.resetByteTimeout, firstByteTimeout := s.cfg.resetFirstByteTimeout
      totalTimeout := s.cfg.resetTotalTimeout, byteCtr := 0#16, totalCtr := 0#16, useFirst := false
      opActive := false } := rfl
@[simp] theorem State.loadDefaults_abt (s : State) : (s.loadDefaults).abt = s.abt := rfl
@[simp] theorem State.loadDefaults_xfer (s : State) : (s.loadDefaults).xfer = s.xfer := rfl
@[simp] theorem State.loadDefaults_disp (s : State) : (s.loadDefaults).disp = { s.disp with srqLatched := false } := rfl
@[simp] theorem State.loadDefaults_out (s : State) : (s.loadDefaults).out = s.out.released := rfl
@[simp] theorem State.loadDefaults_pos (s : State) : (s.loadDefaults).pos = s.pos := rfl
@[simp] theorem State.loadDefaults_rx (s : State) : (s.loadDefaults).rx = s.rx := rfl
@[simp] theorem State.loadDefaults_tx (s : State) : (s.loadDefaults).tx = s.tx := rfl
@[simp] theorem State.loadDefaults_inp (s : State) : (s.loadDefaults).inp = s.inp := rfl
@[simp] theorem State.loadDefaults_sched (s : State) : (s.loadDefaults).sched = s.sched := rfl

end Sys2Proof.Machine
end

