-- ==== Sys2Proof/Laws/Codec.lean ====
section
/-! SUPPORT. The framing codec, row by row (R141), and what an allowed configuration says of its bytes (R11). -/

namespace Sys2Proof.Machine

/-! ## What `Cfg.ok` says of the marker bytes -/

theorem Cfg.ok_markers {c : Cfg} (h : c.ok = true) :
    c.blockStart ≠ c.escape ∧ c.blockEnd ≠ c.escape ∧ c.checkpoint ≠ c.escape ∧ c.blockStart ≠ c.blockEnd
    ∧ c.blockStart ≠ c.checkpoint ∧ c.blockEnd ≠ c.checkpoint ∧ c.escape ≠ c.term ∧ c.blockStart ≠ c.term := by
  simp only [Cfg.ok, Bool.and_eq_true, Bool.not_eq_true', List.contains_eq_mem, decide_eq_false_iff_not,
    List.mem_cons, List.not_mem_nil, or_false, not_or, bne_iff_ne, ne_eq] at h
  obtain ⟨⟨⟨⟨⟨⟨⟨⟨⟨⟨⟨h1, h2⟩, h3⟩, -⟩, -⟩, -⟩, -⟩, -⟩, -⟩, -⟩, -⟩, -⟩ := h
  exact ⟨Ne.symm h1.1, Ne.symm h1.2.1, Ne.symm h1.2.2.1, h2.1, h2.2.1, h3, h1.2.2.2, h2.2.2⟩

/-! ## The rows of `DecStep` -/

theorem decStep_normal_escape (c : Cfg) (f : Bool) : decStep c .normal f c.escape = (.sawEscape, f, .more) := by
  simp [decStep]

theorem decStep_normal_data {c : Cfg} (f : Bool) {b : Byte} (h : b ≠ c.escape) :
    decStep c .normal f b = (.normal, true, .data b) := by
  simp [decStep, h]

theorem decStep_escape_escape (c : Cfg) (f : Bool) :
    decStep c .sawEscape f c.escape = (.normal, true, .data c.escape) := by
  simp [decStep]

theorem decStep_escape_end {c : Cfg} (h : c.ok = true) (f : Bool) :
    decStep c .sawEscape f c.blockEnd = (.normal, f, .finish) := by
  simp [decStep, (Cfg.ok_markers h).2.1]

theorem decStep_escape_checkpoint {c : Cfg} (h : c.ok = true) (f : Bool) :
    decStep c .sawEscape f c.checkpoint = if f then (.normal, true, .checkpoint) else (.normal, false, .violation) := by
  have hm := Cfg.ok_markers h
  simp [decStep, hm.2.2.1, Ne.symm hm.2.2.2.2.2.1]

theorem decStep_escape_other {c : Cfg} (f : Bool) {b : Byte} (h1 : b ≠ c.escape) (h2 : b ≠ c.blockEnd)
    (h3 : b ≠ c.checkpoint) : decStep c .sawEscape f b = (.normal, f, .violation) := by
  simp [decStep, h1, h2, h3]

/-- After any byte but a first `ESCAPE` the decoder is in `Normal` (R141). -/
theorem decStep_state (c : Cfg) (st : CodecState) (f : Bool) (b : Byte) :
    (decStep c st f b).1 = .sawEscape ↔ st = .normal ∧ b = c.escape := by
  cases st <;> simp only [decStep] <;> (repeat' split) <;> simp_all

/-! ## The encoder -/

theorem encPut_escape (c : Cfg) : encPut c c.escape = [c.escape, c.escape] := by simp [encPut]

theorem encPut_other {c : Cfg} {b : Byte} (h : b ≠ c.escape) : encPut c b = [b] := by simp [encPut, h]

theorem encPut_ne_nil (c : Cfg) (b : Byte) : encPut c b ≠ [] := by
  unfold encPut
  split <;> simp

theorem encPayload_nil (c : Cfg) : encPayload c [] = [] := rfl
theorem encPayload_cons (c : Cfg) (b : Byte) (p : List Byte) : encPayload c (b :: p) = encPut c b ++ encPayload c p := rfl

end Sys2Proof.Machine
end

