-- ==== Sys2Proof/Laws/Ops.lean ====
section
/-! SUPPORT. What each shared operation can do, said once: the host primitives, the wait, the service-request poll, the
end of an operation, the events. -/

namespace Sys2Proof.Machine

/-! ## The host primitives -/

/-- All a poll of `HostGet` can do (R73). -/
theorem hostGet_cases (s : State) :
    (s.abt.suspended = true ∧ hostGet s = .abort)
    ∨ (s.abt.suspended = false ∧ s.rx = []
        ∧ hostGet s = .empty (if s.disp.phase = .awaitLeader ∧ s.disp.leaderIdx = 0 then srqPoll s else s))
    ∨ ∃ b rest, s.abt.suspended = false ∧ s.rx = b :: rest
        ∧ hostGet s = .byte b (State.resumed { s with rx := rest }) := by
  cases hs : s.abt.suspended with
  | true => simp [hostGet, hs]
  | false =>
    cases hr : s.rx with
    | nil => simp [hostGet, hs, hr]
    | cons b rest => exact .inr (.inr ⟨b, rest, rfl, rfl, by simp [hostGet, hs, hr]⟩)

/-- All a poll of `HostPut` can do (R75). -/
theorem hostPut_cases (b : Byte) (s : State) :
    (s.abt.suspended = true ∧ hostPut b s = .abort)
    ∨ (s.abt.suspended = false ∧ s.inp.txFull = true ∧ hostPut b s = .full)
    ∨ (s.abt.suspended = false ∧ s.inp.txFull = false ∧ hostPut b s = .ok (s.push b)) := by
  cases hs : s.abt.suspended <;> cases ht : s.inp.txFull <;> simp [hostPut, hs, ht]

/-- A resume writes the tick, the counters and its own flag (R342). -/
theorem resumed_eq (s : State) :
    s.resumed = s ∨ s.resumed =
      { s with
        tmo := { s.tmo with tickArmed := true, byteCtr := 0#16, totalCtr := 0#16 }
        abt := { s.abt with resumePending := false } } := by
  cases h : s.abt.resumePending <;> simp [State.resumed, h]

/-- A service-request poll changes at most the latch, and sends at most the notification (R335). -/
theorem srqPoll_cases (s : State) :
    srqPoll s = s ∨ srqPoll s = { s with disp := { s.disp with srqLatched := false } }
    ∨ srqPoll s = { s.push s.cfg.srqNotify with disp := { s.disp with srqLatched := true } } := by
  unfold srqPoll
  split
  · split
    · exact .inr (.inl rfl)
    · split
      · exact .inr (.inr rfl)
      · exact .inl rfl
  · exact .inl rfl

/-! ## The wait (R171) -/

/-- All an iteration of a wait can do. -/
theorem wait_cases (cond : Bool) (r : Reason) (cancelable : Bool) (s : State) :
    (cond = true ∧ wait cond r cancelable s = some (.ok, s))
    ∨ (cond = false ∧ s.abt.suspended = true ∧ wait cond r cancelable s = some (.suspended, s.stamp (some r)))
    ∨ (cond = false ∧ s.abt.suspended = false ∧ s.abt.timedOut = true
        ∧ wait cond r cancelable s = some (.failed r, s.stamp (some r)))
    ∨ (cond = false ∧ s.abt.suspended = false ∧ s.abt.timedOut = false ∧ cancelable = true ∧ s.inp.hostCancel = true
        ∧ wait cond r cancelable s = some (.cancelled, s))
    ∨ (cond = false ∧ s.abt.suspended = false ∧ s.abt.timedOut = false ∧ (cancelable && s.inp.hostCancel) = false
        ∧ wait cond r cancelable s = none) := by
  cases cond <;> cases hs : s.abt.suspended <;> cases ht : s.abt.timedOut <;> cases cancelable <;>
    cases hc : s.inp.hostCancel <;> simp [wait, hs, ht, hc]

/-- A wait polls again exactly when nothing ends it. -/
theorem wait_eq_none (cond : Bool) (r : Reason) (cancelable : Bool) (s : State) :
    wait cond r cancelable s = none ↔
      cond = false ∧ s.abt.suspended = false ∧ s.abt.timedOut = false ∧ (cancelable && s.inp.hostCancel) = false := by
  cases cond <;> cases hs : s.abt.suspended <;> cases ht : s.abt.timedOut <;>
    cases hc : (cancelable && s.inp.hostCancel) <;> simp [wait, hs, ht, hc]

@[simp] theorem polling_none (s : State) (k : Result → State → State) : polling none s k = s := rfl
@[simp] theorem polling_some (r : Result) (s' s : State) (k : Result → State → State) :
    polling (some (r, s')) s k = k r s' := rfl

/-! ## The end of an operation -/

/-- How an outcome is finished (R264). -/
theorem finish_cases (r : Result) (s : State) :
    (r.code s.cfg = none ∧ finish r s = s.toCleanup)
    ∨ (∃ b, r.code s.cfg = some b ∧ r.resetsBus = true ∧ finish r s = s.goto (.busReset .z1 b))
    ∨ ∃ b, r.code s.cfg = some b ∧ r.resetsBus = false ∧ finish r s = s.goto (.put [b] .cleanup) := by
  unfold finish
  cases hc : r.code s.cfg with
  | none => exact .inl ⟨rfl, rfl⟩
  | some b =>
    cases hb : r.resetsBus with
    | true => exact .inr (.inl ⟨b, rfl, rfl, rfl⟩)
    | false => exact .inr (.inr ⟨b, rfl, rfl, rfl⟩)

/-- Only the end by a suspend sends nothing (R263). -/
theorem Result.code_eq_none (c : Cfg) (r : Result) : r.code c = none ↔ r = .suspended := by
  cases r with
  | failed q => cases q <;> simp [Result.code]
  | _ => simp [Result.code]

/-- A reply is begun, or there is nothing to send. -/
theorem replyWith_eq (s : State) (bs : List Byte) :
    s.replyWith bs = if bs = [] then s.toCleanup else s.goto (.put bs .cleanup) := by
  cases bs <;> simp [State.replyWith]

/-! ## The events -/

/-- A tick writes the two counters and the timeout flag, and sets the flag at most (R221, R223 (e)). -/
theorem tick_frame (s : State) :
    ∃ bc tc f, tick s =
      { s with
        tmo := { s.tmo with byteCtr := bc, totalCtr := tc }
        abt := { s.abt with timedOut := s.abt.timedOut || f } } := by
  unfold tick
  split
  · refine ⟨(countAgainst s.tmo.byteBound s.tmo.byteCtr).1, (countAgainst s.tmo.totalBound s.tmo.totalCtr).1,
      (countAgainst s.tmo.byteBound s.tmo.byteCtr).2 || (countAgainst s.tmo.totalBound s.tmo.totalCtr).2, ?_⟩
    simp [Bool.or_assoc]
  · exact ⟨s.tmo.byteCtr, s.tmo.totalCtr, false, by simp⟩

/-- What a tick leaves: everything but timers and abort flags. -/
theorem tick_sess (s : State) : (tick s).sess = s.sess := by unfold tick; split <;> rfl
theorem tick_out (s : State) : (tick s).out = s.out := by unfold tick; split <;> rfl
theorem tick_xfer (s : State) : (tick s).xfer = s.xfer := by unfold tick; split <;> rfl
theorem tick_disp (s : State) : (tick s).disp = s.disp := by unfold tick; split <;> rfl
theorem tick_pos (s : State) : (tick s).pos = s.pos := by unfold tick; split <;> rfl
theorem tick_tx (s : State) : (tick s).tx = s.tx := by unfold tick; split <;> rfl
theorem tick_rx (s : State) : (tick s).rx = s.rx := by unfold tick; split <;> rfl
theorem tick_inp (s : State) : (tick s).inp = s.inp := by unfold tick; split <;> rfl
theorem tick_cfg (s : State) : (tick s).cfg = s.cfg := by unfold tick; split <;> rfl
theorem tick_sched (s : State) : (tick s).sched = s.sched := by unfold tick; split <;> rfl

/-- The configuration is no event's to change, nor is what has been sent. -/
theorem act_cfg (e : Event) (s : State) : (e.act s).cfg = s.cfg := by
  cases e with
  | tick => exact tick_cfg s
  | _ => rfl

theorem act_tx (e : Event) (s : State) : (e.act s).tx = s.tx := by
  cases e with
  | tick => exact tick_tx s
  | _ => rfl

end Sys2Proof.Machine
end

