-- ==== Sys2Proof/Laws/PerInstr.lean ====
section
/-! SUPPORT. Facts about instructions as syntax, one lemma per constructor. -/

namespace Sys2Proof.Laws.EncodedLength

/-- R101, R102, R125, R131, R134: the length of an encoding. A line is 3 to `3 + MAX_CMD_LEN` bytes, an item of a block
one or two, and nothing is empty. -/
def Statement (i : Instr) : Prop :=
  ∀ c : Cfg, c.ok = true → i.wf c = true →
    1 ≤ (encode c i).length ∧ (encode c i).length ≤ 3 + c.maxCmdLen
    ∧ ((bodyOf i).isSome = true → 3 ≤ (encode c i).length)
    ∧ (contextOf i = .block → (encode c i).length ≤ 2)

theorem maxCmdLen_ge {c : Cfg} (h : c.ok = true) : 6 ≤ c.maxCmdLen := by
  simp only [Cfg.ok, Bool.and_eq_true, decide_eq_true_eq] at h
  omega

/-- A line's length is 3 more than its body's, and its body fits the buffer. -/
theorem of_body {i : Instr} {body : List Byte} (hb : bodyOf i = some body) (hc : contextOf i = .command) :
    Statement i := by
  intro c _ h
  have hw : bodyOk c body = true := by
    simp only [Instr.wf, hb, Bool.and_eq_true] at h
    exact h.2
  have hl : body.length ≤ c.maxCmdLen := by
    simp only [bodyOk, Bool.and_eq_true, decide_eq_true_eq] at hw
    exact hw.1.2
  have he : (encode c i).length = body.length + 3 := by simp [encode, hb]
  refine ⟨by omega, by omega, fun _ => by omega, fun hblk => ?_⟩
  rw [hc] at hblk
  cases hblk

/-- An item of a block, or any encoding of at most two bytes that is no line. -/
theorem of_short {i : Instr} (hb : bodyOf i = none)
    (hl : ∀ c : Cfg, 1 ≤ (encode c i).length ∧ (encode c i).length ≤ 2) : Statement i := by
  intro c _ _
  have := hl c
  refine ⟨by omega, by omega, fun h => ?_, fun _ => this.2⟩
  simp [hb] at h

theorem pwron : Statement .pwron := of_body rfl rfl
theorem busCmdRelease (b : Byte) : Statement (.busCmdRelease b) := of_body rfl rfl
theorem busCmdHold (b : Byte) : Statement (.busCmdHold b) := of_body rfl rfl
theorem blk : Statement .blk := by
  intro c hc _
  have := maxCmdLen_ge hc
  refine ⟨by simp [encode, bodyOf], ?_, by simp [bodyOf], by simp [contextOf]⟩
  simp only [encode, bodyOf, List.length_cons, List.length_nil]
  omega
theorem recvBlk : Statement .recvBlk := of_body rfl rfl
theorem recvByte : Statement .recvByte := of_body rfl rfl
theorem busRst : Statement .busRst := of_body rfl rfl
theorem pwrOff : Statement .pwrOff := of_body rfl rfl
theorem setWriteMode (d : Digits) : Statement (.setWriteMode d) := of_body rfl rfl
theorem setByteTimeout (d : Digits) : Statement (.setByteTimeout d) := of_body rfl rfl
theorem setTotalTimeout (d : Digits) : Statement (.setTotalTimeout d) := of_body rfl rfl
theorem setFirstTimeout (d : Digits) : Statement (.setFirstTimeout d) := of_body rfl rfl
theorem setRen (x : Bool) : Statement (.setRen x) := of_body rfl rfl
theorem setSrq (x : Bool) : Statement (.setSrq x) := of_body rfl rfl
theorem ident (n : Fin 3) : Statement (.ident n) := of_body rfl rfl
theorem status : Statement .status := of_body rfl rfl
theorem escStart : Statement .escStart := of_short rfl fun _ => by simp [encode, bodyOf]
theorem escEsc : Statement .escEsc := of_short rfl fun _ => by simp [encode, bodyOf]
theorem escEnd : Statement .escEnd := of_short rfl fun _ => by simp [encode, bodyOf]
theorem escChk : Statement .escChk := of_short rfl fun _ => by simp [encode, bodyOf]
theorem escOther (x : Byte) : Statement (.escOther x) := of_short rfl fun _ => by simp [encode, bodyOf]
theorem literal (x : Byte) : Statement (.literal x) := of_short rfl fun _ => by simp [encode, bodyOf]
theorem syntaxError (bad : BadBody) : Statement (.syntaxError bad) := by
  cases bad with
  | line body => exact of_body rfl rfl
  | oversized body b =>
    intro c _ h
    have hl : body.length = c.maxCmdLen := by
      simp only [Instr.wf, bytesOk, Bool.and_eq_true, decide_eq_true_eq] at h
      exact h.1.2.1.1
    refine ⟨by simp [encode, bodyOf], ?_, by simp [bodyOf], by simp [contextOf]⟩
    simp only [encode, bodyOf, List.length_cons, List.length_append, List.length_nil]
    omega
theorem resync (bad : BadLeader) : Statement (.resync bad) := by
  cases bad with
  | first b => exact of_short rfl fun _ => by simp [encode, bodyOf]
  | second b => exact of_short rfl fun _ => by simp [encode, bodyOf]

end Sys2Proof.Laws.EncodedLength
end

