-- ==== Sys2Proof/Laws/Turns.lean ====
section
/-! SUPPORT. How a run goes through its turns: the equations of `runTurns`, `beginTurns` and `fetchTurns`, what a step
is at each kind of position, and the inductions along a run packaged once. -/

namespace Sys2Proof.Machine

/-! ## Turns -/

theorem turn_nil (s : State) : s.turn [] = s := rfl
theorem turn_cons (s : State) (e : Event) (t : Turn) : s.turn (e :: t) = (e.act s).turn t := rfl

theorem quietTurns_zero : quietTurns 0 = [] := rfl
theorem quietTurns_succ (n : Nat) : quietTurns (n + 1) = [] :: quietTurns n := rfl
theorem quietTurns_add (m n : Nat) : quietTurns (m + n) = quietTurns m ++ quietTurns n := by
  simp [quietTurns, List.replicate_append_replicate]

/-- What every event keeps, a turn keeps. -/
theorem turn_keeps (P : State → Prop) (act : ∀ (e : Event) (s : State), P s → P (e.act s)) (t : Turn) (s : State) (h : P s) :
    P (s.turn t) := by
  induction t generalizing s with
  | nil => exact h
  | cons e t ih => exact ih _ (act e s h)

/-- No event moves the foreground but a power-on reset, which puts it at the leader (R93, R61). -/
theorem act_pos (e : Event) (s : State) : (e.act s).pos = s.pos ∨ (e.act s).pos = .leader := by
  cases e with
  | por => exact .inr rfl
  | tick => exact .inl (tick_pos s)
  | _ => exact .inl rfl

theorem turn_pos (t : Turn) (s : State) : (s.turn t).pos = s.pos ∨ (s.turn t).pos = .leader :=
  turn_keeps (fun u => u.pos = s.pos ∨ u.pos = .leader)
    (fun e u hu => (act_pos e u).elim (fun h => h ▸ hu) .inr) t s (.inl rfl)

/-! ## Runs -/

theorem runTurns_nil (s : State) : runTurns [] s = { s with sched := [] } := rfl

theorem runTurns_fetch (ts : List Turn) (s : State) (h : s.pos.isFetch = true) :
    runTurns ts s = { s with sched := ts } := by
  cases ts with
  | nil => rfl
  | cons t ts => simp [runTurns, h]

theorem runTurns_cons (t : Turn) (ts : List Turn) (s : State) (h : s.pos.isFetch = false)
    (ht : (s.turn t).pos.isFetch = false) : runTurns (t :: ts) s = runTurns ts (fg (s.turn t)) := by
  simp [runTurns, h, ht]

/-- A turn in which a power-on reset falls leaves its foreground step to the fetch. -/
theorem runTurns_reset (t : Turn) (ts : List Turn) (s : State) (h : s.pos.isFetch = false)
    (ht : (s.turn t).pos.isFetch = true) : runTurns (t :: ts) s = { s.turn t with sched := [] :: ts } := by
  simp [runTurns, h, ht]

/-- A quiet turn of a run is one foreground step. -/
theorem runTurns_quiet (ts : List Turn) (s : State) (h : s.pos.isFetch = false) :
    runTurns ([] :: ts) s = runTurns ts (fg s) := runTurns_cons [] ts s h h

theorem run_eq (s : State) : s.run = runTurns s.sched s := rfl

/-- What events and foreground steps keep, and what does not depend on the schedule, a run keeps. -/
theorem runTurns_keeps (P : State → Prop) (act : ∀ (e : Event) (s : State), P s → P (e.act s)) (step : ∀ s, P s → P (fg s))
    (sched : ∀ s ts, P s → P { s with sched := ts }) (ts : List Turn) (s : State) (h : P s) : P (runTurns ts s) := by
  induction ts generalizing s with
  | nil => exact sched _ _ h
  | cons t ts ih =>
    cases hp : s.pos.isFetch with
    | true => rw [runTurns_fetch _ _ hp]; exact sched _ _ h
    | false =>
      have hk := turn_keeps P act t s h
      cases ht : (s.turn t).pos.isFetch with
      | true => rw [runTurns_reset _ _ _ hp ht]; exact sched _ _ hk
      | false => rw [runTurns_cons _ _ _ hp ht]; exact ih _ (step _ hk)

/-- The same for the turns in which a command begins. -/
theorem beginTurns_keeps (P : State → Prop) (act : ∀ (e : Event) (s : State), P s → P (e.act s)) (step : ∀ s, P s → P (fg s))
    (sched : ∀ s ts, P s → P { s with sched := ts }) (line : State → State)
    (first : ∀ s, s.pos.isReady = true → P s → P (line s))
    (ts : List Turn) (s : State) (h : P s) : P (beginTurns line ts s) := by
  induction ts generalizing s with
  | nil => exact sched _ _ h
  | cons t ts ih =>
    have ht := turn_keeps P act t s h
    simp only [beginTurns]
    split
    · rename_i hr
      split
      · exact ih _ (first _ hr ht)
      · exact runTurns_keeps P act step sched ts _ (first _ hr ht)
    · exact sched _ _ ht

/-- A property of the result of a fetch. -/
def Fetched.All (P : State → Prop) : Fetched → Prop
  | .more s => P s
  | .instr _ s => P s
  | .abandon s => P s

/-- The same for the turns of a fetch. -/
theorem fetchTurns_keeps (P : State → Prop) (act : ∀ (e : Event) (s : State), P s → P (e.act s))
    (poll : ∀ s, P s → (fetchPoll s).All P) (sched : ∀ s ts, P s → P { s with sched := ts })
    (ts : List Turn) (s : State) (h : P s) : (fetchTurns ts s).All P := by
  induction ts generalizing s with
  | nil => exact sched _ _ h
  | cons t ts ih =>
    have hp := poll _ (turn_keeps P act t s h)
    simp only [fetchTurns]
    split
    · rename_i s' he
      rw [he] at hp
      exact ih _ hp
    · rename_i i s' he
      rw [he] at hp
      exact sched _ _ hp
    · rename_i s' he
      rw [he] at hp
      exact sched _ _ hp

/-! ## One step -/

/-- What a step is, by the kind of position it starts from. -/
theorem step_cases (s : State) :
    (∃ i, s.pos = .ready i ∧ step s = exec i s)
    ∨ (s.pos.isFetch = true ∧ (∃ i s', fetchTurns s.sched s = .instr i s' ∧ step s = exec i s'))
    ∨ (s.pos.isFetch = true ∧ (∃ s', fetchTurns s.sched s = .more s' ∧ step s = .next s'))
    ∨ (s.pos.isFetch = true ∧ (∃ s', fetchTurns s.sched s = .abandon s' ∧ step s = .next s'.run))
    ∨ (s.pos.isFetch = false ∧ step s = .next s.run) := by
  unfold step
  split
  · rename_i i hp
    exact .inl ⟨i, hp, rfl⟩
  · rename_i hn
    cases hf : s.pos.isFetch with
    | false => exact .inr (.inr (.inr (.inr ⟨rfl, rfl⟩)))
    | true =>
      cases he : fetchTurns s.sched s with
      | instr i s' => exact .inr (.inl ⟨rfl, i, s', rfl, rfl⟩)
      | more s' => exact .inr (.inr (.inl ⟨rfl, s', rfl, rfl⟩))
      | abandon s' => exact .inr (.inr (.inr (.inl ⟨rfl, s', rfl, rfl⟩)))

/-! ## Endless executions (R97) -/

theorem stepped_eq {s t : State} (h : step s = .next t) : s.stepped = t := by simp [State.stepped, h]

@[simp] theorem given_sched (s : State) (t : Turn) : (s.given t).sched = s.sched ++ [t] := rfl
@[simp] theorem given_pos (s : State) (t : Turn) : (s.given t).pos = s.pos := rfl

theorem execution_zero (turns : Nat → Turn) (s : State) : execution turns s 0 = s := rfl
theorem execution_succ (turns : Nat → Turn) (s : State) (n : Nat) :
    execution turns s (n + 1) = ((execution turns s n).given (turns n)).stepped := rfl

/-- In the middle of an instruction and with nothing scheduled, one more turn is its events and one foreground step. -/
theorem stepped_given (s : State) (t : Turn) (h : s.pos.isFetch = false) (hs : s.sched = []) :
    (s.given t).stepped = runTurns [t] (s.given t) := by
  apply stepped_eq
  rcases step_cases (s.given t) with ⟨i, hp, -⟩ | ⟨hf, -⟩ | ⟨hf, -⟩ | ⟨hf, -⟩ | ⟨-, he⟩
  · rw [given_pos] at hp; rw [hp] at h; cases h
  · rw [given_pos, h] at hf; cases hf
  · rw [given_pos, h] at hf; cases hf
  · rw [given_pos, h] at hf; cases hf
  · rw [he, run_eq, given_sched, hs]; rfl

end Sys2Proof.Machine
end

