-- ==== Sys2Proof/Laws/Runs.lean ====
section
/-! SUPPORT. The stretches that every command shares, run through quiet turns: its beginning, its reply, its cleanup. -/

namespace Sys2Proof.Machine

/-! ## The last step before a fetch position -/

@[simp] theorem isFetch_k1 : Pos.k1.isFetch = false := rfl
@[simp] theorem isFetch_k2 : Pos.k2.isFetch = false := rfl
@[simp] theorem isFetch_k3 : Pos.k3.isFetch = false := rfl
@[simp] theorem isFetch_put (bs : List Byte) (k : PutReturn) : (Pos.put bs k).isFetch = false := rfl

/-! ## Cleanup (R265) -/

/-- Without a suspend, and with nothing to drain, `Cleanup` is `EndOp` and the cycle start. -/
theorem runTurns_cleanup (s : State) (ts : List Turn) (hp : s.pos = .k1) (hs : s.abt.suspended = false)
    (hd : s.disp.curCmd ≠ some .sendBlk ∨ s.xfer.blockDone = true) :
    runTurns (quietTurns 3 ++ ts) s = s.ended ts := by
  have h1 : fg s = s.endOp.goto .k2 := by simp [fg, hp, cleanupK1]
  have h2 : fg (s.endOp.goto .k2) = s.endOp.goto .k3 := by
    have : ¬(s.disp.curCmd = some .sendBlk ∧ s.xfer.blockDone = false ∧ s.abt.suspended = false) := by
      rcases hd with h | h <;> simp [h]
    simp only [fg, State.goto_pos, cleanupK2, State.goto_disp, State.endOp_disp, State.goto_xfer, State.endOp_xfer,
      State.goto_abt, State.endOp_abt, this, if_false]
    rfl
  have h3 : fg (s.endOp.goto .k3) = s.endOp.cycleStart := by
    simp [fg, cleanupK3, hs]
    rfl
  show runTurns ([] :: [] :: [] :: ts) s = _
  rw [runTurns_quiet _ _ (by rw [hp]; rfl), h1, runTurns_quiet _ _ rfl, h2, runTurns_quiet _ _ rfl, h3,
    runTurns_fetch _ _ rfl]
  rfl

/-! ## Replies (R262, R75) -/

/-- One byte of a sequence, when the host channel takes it. -/
theorem fg_put (s : State) (b : Byte) (rest : List Byte) (k : PutReturn) (hp : s.pos = .put (b :: rest) k)
    (hs : s.canSend = true) :
    fg s = if rest = [] then putDone k true (s.push b) else (s.push b).goto (.put rest k) := by
  simp only [State.canSend, Bool.and_eq_true, Bool.not_eq_true'] at hs
  simp [fg, hp, putStep, hostPut, hs.1, hs.2]

/-- A whole sequence, when the host channel takes it, and what follows it. -/
theorem runTurns_put (k : PutReturn) (ts : List Turn) (bs : List Byte) (s : State) (hp : s.pos = .put bs k)
    (hb : bs ≠ []) (hs : s.canSend = true) :
    ∃ last, runTurns (quietTurns bs.length ++ ts) s = runTurns ts (putDone k true ((s.sent bs).goto (.put [last] k))) := by
  induction bs generalizing s with
  | nil => exact absurd rfl hb
  | cons b rest ih =>
    have hq : quietTurns (b :: rest).length ++ ts = [] :: (quietTurns rest.length ++ ts) := rfl
    rw [hq, runTurns_quiet _ _ (by rw [hp]; rfl), fg_put s b rest k hp hs]
    cases rest with
    | nil =>
      refine ⟨b, ?_⟩
      have : (s.sent [b]).goto (.put [b] k) = s.push b := by
        cases s
        simp only at hp
        subst hp
        rfl
      simp [this, quietTurns]
    | cons c rest' =>
      obtain ⟨last, h⟩ := ih ((s.push b).goto (.put (c :: rest') k)) rfl (by simp) hs
      refine ⟨last, ?_⟩
      simp only [List.cons_ne_nil, if_false]
      rw [h]
      simp [State.sent, State.push, State.goto, List.append_assoc]

/-- A reply of at least one byte, to the end of the command. -/
theorem runTurns_reply (s : State) (bs : List Byte) (ts : List Turn) (hp : s.pos = .put bs .cleanup) (hb : bs ≠ [])
    (hs : s.canSend = true) (hd : s.disp.curCmd ≠ some .sendBlk ∨ s.xfer.blockDone = true) :
    runTurns (quietTurns (bs.length + 3) ++ ts) s = (s.sent bs).ended ts := by
  obtain ⟨last, h⟩ := runTurns_put .cleanup (quietTurns 3 ++ ts) bs s hp hb hs
  rw [quietTurns_add, List.append_assoc, h]
  simp only [State.canSend, Bool.and_eq_true, Bool.not_eq_true'] at hs
  rw [runTurns_cleanup _ _ rfl (by simpa [putDone, State.toCleanup, State.sent] using hs.1)]
  · rfl
  · simpa [putDone, State.toCleanup, State.sent] using hd

/-! ## The beginning of a command (R259, R260) -/

/-- In quiet turns a command's first line runs on the state that the implicit power-on leaves. -/
theorem execute_quiet (i : Instr) (c : Command) (line : State → State) (s : State) (ts : List Turn)
    (hline : ∀ u, (line u).pos.isReady = false) (hs : s.sched = quietTurns s.beginning ++ ts) :
    execute i c line s = runTurns ts (line (s.dispatched i c).poweredUp) := by
  unfold execute
  cases hp : s.sess.powered with
  | true =>
    have hq : quietTurns s.beginning ++ ts = [] :: ts := by simp [State.beginning, hp, quietTurns]
    rw [hs, hq]
    have h0 : poweredLine line (s.dispatched i c) = line (s.dispatched i c) := by
      simp [poweredLine, State.dispatched, hp]
    have h1 : (s.dispatched i c).poweredUp = s.dispatched i c := by simp [State.poweredUp, State.dispatched, hp]
    have h2 : (s.dispatched i c).pos.isReady = true := rfl
    simp only [beginTurns, turn_nil, h2, if_true, h0, h1, hline, Bool.false_eq_true, if_false]
  | false =>
    have hq : quietTurns s.beginning ++ ts = [] :: [] :: ts := by simp [State.beginning, hp, quietTurns]
    rw [hs, hq]
    have h0 : poweredLine line (s.dispatched i c) = (s.dispatched i c).powerOn := by
      simp [poweredLine, State.dispatched, hp]
    have h1 : (s.dispatched i c).poweredUp = (s.dispatched i c).powerOn := by
      simp [State.poweredUp, State.dispatched, hp]
    have h2 : (s.dispatched i c).pos.isReady = true := rfl
    have h3 : (s.dispatched i c).powerOn.pos.isReady = true := rfl
    have h4 : poweredLine line (s.dispatched i c).powerOn = line (s.dispatched i c).powerOn := by
      simp [poweredLine, State.powerOn, State.setPowered, State.setRole]
    simp only [beginTurns, turn_nil, h2, if_true, h0, h1, h3, h4, hline, Bool.false_eq_true, if_false]

end Sys2Proof.Machine
end

