-- ==== Sys2Proof/Tests/Slice0.lean ====
section
/-! SUPPORT. Small tests, each with the vector or example of spec/ its expected result is taken from, and for every
statement with hypotheses a witness that meets them. -/

namespace Sys2Proof.Tests

open Sys2Proof Sys2Proof.Machine

/-! ## Helpers -/

/-- The default configuration. -/
abbrev c : Cfg := Cfg.default

/-- What a step or a meaning answered, the reset state if it stopped. -/
def nextOf (r : Host.Outcome State Fault Refusal) : State :=
  match r with
  | .next s => s
  | _ => State.reset

/-- The reset state with power on. -/
def on : State := { State.reset with sess := { State.reset.sess with powered := true } }

/-- A state with host bytes and quiet turns. -/
def State.fed (s : State) (bs : List Byte) (n : Nat) : State := { s with rx := bs, sched := quietTurns n }

/-- The register state after the host's bytes are fed from reset, and what the host then has. -/
def fedStep (bs : List Byte) : State := nextOf (step (State.fed State.reset bs (bs.length + 20)))

/-- The inputs with NDAC asserted, as a listener that waits for a byte drives them (spec/95, listener L). -/
def listenerWaits : Inputs := { Inputs.quiet with lines := { Lines.released with ndac := true } }

/-- The inputs with NRFD asserted and NDAC released: the listener has taken the byte. -/
def listenerTook : Inputs := { Inputs.quiet with lines := { Lines.released with nrfd := true } }

/-- The inputs in which a talker asserts data-valid. -/
def talkerHolds : Inputs := { Inputs.quiet with lines := { Lines.released with dav := true } }

/-- The reset state at the first item of a block that has been opened. -/
def inBlock : State :=
  { on with
    sess := { on.sess with role := .talker }
    tmo := { on.tmo with opActive := true, useFirst := true }
    xfer := { on.xfer.decInit with eoiPolicy := true }
    disp := { on.disp with phase := .transfer, curCmd := some .sendBlk, leaderIdx := 1, cmdBuf := [0x10#8] }
    pos := .item
    inp := listenerWaits }

/-- The same with `41` held. -/
def holding : State := { inBlock with xfer := { inBlock.xfer with seenFirst := true, holdByte := 0x41#8, holdValid := true } }

/-- The drain of a block whose handshake failed. -/
def draining : State :=
  { on with
    xfer := { on.xfer with seenFirst := true }
    disp := { on.disp with phase := .cleanup, curCmd := some .sendBlk }
    pos := .drain }

/-- A listener at a step of an acceptor operation, NRFD and NDAC as R200 and R210 drive them there. -/
def accepting (p : Pos) (cmd : Command) : State :=
  { on with
    sess := { on.sess with role := .listener }
    tmo := { on.tmo with opActive := true, useFirst := true }
    disp := { on.disp with phase := .transfer, curCmd := some cmd }
    out := { on.out.listening with nrfd := !p.nrfdMayDrop, ndac := !p.ndacMayDrop }
    pos := p }

/-- A talker at a step of a source operation. -/
def sourcing (p : Pos) (cmd : Command) : State :=
  { on with
    sess := { on.sess with role := .talker }
    tmo := { on.tmo with opActive := true, useFirst := true }
    disp := { on.disp with phase := .transfer, curCmd := some cmd }
    pos := p }

/-- A state whose timeout flag is set. -/
def State.late (s : State) : State := { s with abt := { s.abt with timedOut := true } }

/-- A state with a pending suspend (R340). -/
def State.dozing (s : State) : State := suspendEvent s

/-! ## Ill-formed terms are refused -/

theorem test_wf_refuses_empty_number :
    Instr.wf c (.setWriteMode []) = false ∧ Instr.wf c (.setByteTimeout []) = false
    ∧ Instr.wf c (.setTotalTimeout []) = false ∧ Instr.wf c (.setFirstTimeout []) = false := by decide

theorem test_wf_refuses_write_mode_8 : Instr.wf c (.setWriteMode [8]) = false := by decide

theorem test_wf_refuses_command_as_syntax_error :
    Instr.wf c (.syntaxError (.line [0x53#8])) = false := by decide

theorem test_wf_refuses_terminator_operand :
    Instr.wf c (.busCmdRelease 0x0A#8) = false ∧ Instr.wf c (.busCmdHold 0x0A#8) = false
    ∧ Instr.wf c (.syntaxError (.line [0x58#8, 0x0A#8])) = false := by decide

theorem test_wf_refuses_long_body : Instr.wf c (.setTotalTimeout (List.replicate 16 0)) = false := by decide

theorem test_wf_refuses_block_start_body : Instr.wf c (.syntaxError (.line [0x10#8, 0x02#8])) = false := by decide

theorem test_wf_refuses_named_escapes :
    Instr.wf c (.escOther 0x10#8) = false ∧ Instr.wf c (.escOther 0x02#8) = false
    ∧ Instr.wf c (.escOther 0x03#8) = false ∧ Instr.wf c (.escOther 0x05#8) = false
    ∧ Instr.wf c (.literal 0x10#8) = false := by decide

theorem test_wf_refuses_bad_oversized :
    Instr.wf c (.syntaxError (.oversized [0x58#8] 0x58#8)) = false
    ∧ Instr.wf c (.syntaxError (.oversized (List.replicate 16 0x58#8) 0x0A#8)) = false := by decide

theorem test_wf_refuses_matching_leader :
    Instr.wf c (.resync (.first 0x49#8)) = false ∧ Instr.wf c (.resync (.second 0x42#8)) = false := by decide

theorem test_cfg_refuses_clashing_markers :
    Cfg.ok { c with blockEnd := 0x05#8 } = false ∧ Cfg.ok { c with term := 0x53#8 } = false
    ∧ Cfg.ok { c with maxCmdLen := 5 } = false ∧ Cfg.ok { c with nak := 0x06#8 } = false := by decide

/-! ## Decoding: bytes written out from spec/30_encoding.md and spec/95_test_vectors.md, section 2.2 -/

theorem test_decode_pwron : decode c .command [0x49#8, 0x42#8, 0x0A#8] = .ok (.pwron, []) := by decide
theorem test_decode_busCmdRelease :
    decode c .command [0x49#8, 0x42#8, 0x43#8, 0x3F#8, 0x0A#8] = .ok (.busCmdRelease 0x3F#8, []) := by decide
theorem test_decode_busCmdHold :
    decode c .command [0x49#8, 0x42#8, 0x63#8, 0x10#8, 0x0A#8] = .ok (.busCmdHold 0x10#8, []) := by decide
theorem test_decode_blk :
    decode c .command [0x49#8, 0x42#8, 0x10#8, 0x02#8, 0x41#8] = .ok (.blk, [0x41#8]) := by decide
theorem test_decode_recvBlk : decode c .command [0x49#8, 0x42#8, 0x3F#8, 0x0A#8] = .ok (.recvBlk, []) := by decide
theorem test_decode_recvByte : decode c .command [0x49#8, 0x42#8, 0x42#8, 0x0A#8] = .ok (.recvByte, []) := by decide
theorem test_decode_busRst : decode c .command [0x49#8, 0x42#8, 0x5A#8, 0x0A#8] = .ok (.busRst, []) := by decide
theorem test_decode_pwrOff : decode c .command [0x49#8, 0x42#8, 0x4F#8, 0x0A#8] = .ok (.pwrOff, []) := by decide
theorem test_decode_setWriteMode :
    decode c .command [0x49#8, 0x42#8, 0x65#8, 0x30#8, 0x30#8, 0x37#8, 0x0A#8] =
      .ok (.setWriteMode [0, 0, 7], []) := by decide
theorem test_decode_setByteTimeout :
    decode c .command [0x49#8, 0x42#8, 0x74#8, 0x32#8, 0x35#8, 0x36#8, 0x0A#8] =
      .ok (.setByteTimeout [2, 5, 6], []) := by decide
theorem test_decode_setTotalTimeout :
    decode c .command [0x49#8, 0x42#8, 0x54#8, 0x33#8, 0x30#8, 0x30#8, 0x0A#8] =
      .ok (.setTotalTimeout [3, 0, 0], []) := by decide
theorem test_decode_setFirstTimeout :
    decode c .command [0x49#8, 0x42#8, 0x66#8, 0x31#8, 0x0A#8] = .ok (.setFirstTimeout [1], []) := by decide
theorem test_decode_setRen :
    decode c .command [0x49#8, 0x42#8, 0x6D#8, 0x31#8, 0x0A#8] = .ok (.setRen true, []) := by decide
theorem test_decode_setSrq :
    decode c .command [0x49#8, 0x42#8, 0x51#8, 0x30#8, 0x0A#8] = .ok (.setSrq false, []) := by decide
theorem test_decode_ident :
    decode c .command [0x49#8, 0x42#8, 0x49#8, 0x32#8, 0x0A#8] = .ok (.ident 2, []) := by decide
theorem test_decode_status : decode c .command [0x49#8, 0x42#8, 0x53#8, 0x0A#8] = .ok (.status, []) := by decide
theorem test_decode_escStart : decode c .block [0x10#8, 0x02#8] = .ok (.escStart, []) := by decide
theorem test_decode_escEsc : decode c .block [0x10#8, 0x10#8] = .ok (.escEsc, []) := by decide
theorem test_decode_escEnd : decode c .block [0x10#8, 0x03#8, 0x49#8] = .ok (.escEnd, [0x49#8]) := by decide
theorem test_decode_escChk : decode c .block [0x10#8, 0x05#8] = .ok (.escChk, []) := by decide
theorem test_decode_escOther : decode c .block [0x10#8, 0x41#8] = .ok (.escOther 0x41#8, []) := by decide
theorem test_decode_literal : decode c .block [0x0A#8, 0x10#8] = .ok (.literal 0x0A#8, [0x10#8]) := by decide
/-- V43, V58, V69. -/
theorem test_decode_syntaxError :
    decode c .command [0x49#8, 0x42#8, 0x65#8, 0x38#8, 0x0A#8] = .ok (.syntaxError (.line [0x65#8, 0x38#8]), [])
    ∧ decode c .command [0x49#8, 0x42#8, 0x10#8, 0x41#8, 0x0A#8] = .ok (.syntaxError (.line [0x10#8, 0x41#8]), [])
    ∧ decode c .command ([0x49#8, 0x42#8] ++ List.replicate 17 0x58#8) =
        .ok (.syntaxError (.oversized (List.replicate 16 0x58#8) 0x58#8), []) := by decide
/-- V61, V63. -/
theorem test_decode_resync :
    decode c .command [0x0A#8] = .ok (.resync (.first 0x0A#8), [])
    ∧ decode c .command [0x49#8, 0x58#8, 0x49#8] = .ok (.resync (.second 0x58#8), [0x49#8]) := by decide
/-- R111 row 2 where `ESCAPE` is the letter `C` (log entry 32); R256 still takes the block-start marker first. -/
theorem test_decode_escape_is_a_letter :
    let d := { c with escape := 0x43#8 }
    d.ok = true ∧ decode d .command [0x49#8, 0x42#8, 0x43#8, 0x3F#8, 0x0A#8] = .ok (.busCmdRelease 0x3F#8, [])
    ∧ decode d .command [0x49#8, 0x42#8, 0x43#8, 0x02#8] = .ok (.blk, []) := by decide
theorem test_decode_unfinished : decode c .command [0x49#8, 0x42#8, 0x65#8] = .error .incomplete := by decide

/-- Every row of spec/opcode_table.json, by its "match" number. -/
theorem test_table_words :
    decodeTableWord 24 0x49420A = some .pwron ∧ decodeTableWord 40 0x494243000A = some (.busCmdRelease 0x00#8)
    ∧ decodeTableWord 40 0x494263000A = some (.busCmdHold 0x00#8) ∧ decodeTableWord 32 0x49421002 = some .blk
    ∧ decodeTableWord 32 0x49423F0A = some .recvBlk ∧ decodeTableWord 32 0x4942420A = some .recvByte
    ∧ decodeTableWord 32 0x49425A0A = some .busRst ∧ decodeTableWord 32 0x49424F0A = some .pwrOff
    ∧ decodeTableWord 24 0x494265 = some (.setWriteMode [0]) ∧ decodeTableWord 24 0x494274 = some (.setByteTimeout [0])
    ∧ decodeTableWord 24 0x494254 = some (.setTotalTimeout [0])
    ∧ decodeTableWord 24 0x494266 = some (.setFirstTimeout [0])
    ∧ decodeTableWord 40 0x49426D300A = some (.setRen false) ∧ decodeTableWord 40 0x494251300A = some (.setSrq false)
    ∧ decodeTableWord 40 0x494249300A = some (.ident 0) ∧ decodeTableWord 32 0x4942530A = some .status
    ∧ decodeTableWord 16 0x1002 = some .escStart ∧ decodeTableWord 16 0x1010 = some .escEsc
    ∧ decodeTableWord 16 0x1003 = some .escEnd ∧ decodeTableWord 16 0x1005 = some .escChk
    ∧ decodeTableWord 16 0x1000 = some (.escOther 0x00#8) ∧ decodeTableWord 8 0x00 = some (.literal 0x00#8)
    ∧ decodeTableWord 16 0x4942 = some (.syntaxError (.line [0x00#8])) := by decide

/-- `ParseDec` (spec/95, section 2.2). -/
theorem test_parseDec :
    parseDec [0x30#8, 0x30#8, 0x37#8] = some 7 ∧ parseDec [0x36#8, 0x35#8, 0x35#8, 0x33#8, 0x36#8] = some 65536
    ∧ parseDec [0x2D#8, 0x31#8] = none ∧ parseDec [0x31#8, 0x41#8] = none ∧ parseDec [] = none
    ∧ parseDec (List.replicate 15 0x39#8) = some 999999999999999 := by decide

/-! ## The codec (spec/95, section 2.1) -/

/-- V14, V15, V17. -/
theorem test_encode_block :
    encodeBlock c [0x10#8, 0x03#8] = [0x10#8, 0x02#8, 0x10#8, 0x10#8, 0x03#8, 0x10#8, 0x03#8]
    ∧ encodeBlock c [0x02#8, 0x03#8, 0x05#8, 0x0A#8] =
        [0x10#8, 0x02#8, 0x02#8, 0x03#8, 0x05#8, 0x0A#8, 0x10#8, 0x03#8]
    ∧ encodeBlock c [0x00#8, 0xFF#8] = [0x10#8, 0x02#8, 0x00#8, 0xFF#8, 0x10#8, 0x03#8] := by decide

/-- V18, V19, V20, V25, V26. -/
theorem test_decodeAll :
    decodeAll c [0x41#8, 0x10#8, 0x05#8, 0x42#8, 0x10#8, 0x05#8, 0x10#8, 0x03#8] = .ok [0x41#8, 0x42#8] []
    ∧ decodeAll c [0x10#8, 0x05#8, 0x41#8, 0x10#8, 0x03#8] = .frameError [] [0x41#8, 0x10#8, 0x03#8]
    ∧ decodeAll c [0x41#8, 0x10#8, 0x02#8] = .frameError [0x41#8] []
    ∧ decodeAll c [0x10#8, 0x03#8, 0x49#8, 0x42#8] = .ok [] [0x49#8, 0x42#8]
    ∧ decodeAll c [0x41#8, 0x42#8, 0x10#8] = .incomplete [0x41#8, 0x42#8] := by decide

/-! ## The tick (spec/95, section 2.4) -/

/-- The state of a vector of section 2.4. -/
def tickState (uf : Bool) (fbt bt tt bc tc : Half) (flag : Bool) : State :=
  { on with
    tmo :=
      { byteTimeout := bt, firstByteTimeout := fbt, totalTimeout := tt, byteCtr := bc, totalCtr := tc, useFirst := uf,
        opActive := true, tickArmed := true }
    abt := { on.abt with timedOut := flag } }

/-- What a vector of section 2.4 lists after the tick. -/
def ticked (s : State) : Half × Half × Bool := ((tick s).tmo.byteCtr, (tick s).tmo.totalCtr, (tick s).abt.timedOut)

/-- V73, V74, V75, V77, V79, V81. -/
theorem test_tick_vectors :
    ticked (tickState true 5#16 3#16 0#16 4#16 0#16 false) = (5#16, 0#16, true)
    ∧ ticked (tickState true 0#16 3#16 0#16 2#16 0#16 false) = (3#16, 0#16, true)
    ∧ ticked (tickState false 5#16 0#16 0#16 7#16 0#16 false) = (7#16, 0#16, false)
    ∧ ticked (tickState false 0#16 3#16 2#16 0#16 1#16 false) = (1#16, 2#16, true)
    ∧ ticked (tickState false 0#16 3#16 0#16 65535#16 0#16 true) = (0#16, 0#16, true)
    ∧ ticked (tickState true 0#16 0#16 4#16 0#16 3#16 false) = (0#16, 4#16, true) := by decide

/-! ## One step of each instruction, from the bytes (the examples of spec/44, spec/45 and spec/95) -/

/-- R280's example. -/
theorem test_step_pwron :
    (fedStep [0x49#8, 0x42#8, 0x0A#8]).tx = [0x06#8] ∧ (fedStep [0x49#8, 0x42#8, 0x0A#8]).renOut = true := by decide
/-- R283: `C 3F` with nobody there waits at S2 with attention asserted and the byte driven. -/
theorem test_step_busCmdRelease :
    let t := fedStep [0x49#8, 0x42#8, 0x43#8, 0x3F#8, 0x0A#8]
    t.out.atn = true ∧ t.out.dio = 0x3F#8 ∧ t.out.dioOe = true ∧ t.out.dav = false ∧ t.tx = [] := by decide
/-- R282: after `c 3F` with a listener attention stays asserted. -/
theorem test_step_busCmdHold :
    let s := { on with inp := listenerWaits, sched := quietTurns 8 ++ [[.inputs listenerTook]] ++ quietTurns 7 }
    let t := nextOf (exec (.busCmdHold 0x3F#8) s)
    t.out.atn = true ∧ t.out.dav = false ∧ t.tx = [0x06#8] := by decide
/-- R290 (a): the header makes CORE a talker; the end marker of the empty block is acknowledged. -/
theorem test_step_blk :
    let t := fedStep [0x49#8, 0x42#8, 0x10#8, 0x02#8, 0x10#8, 0x03#8]
    t.pos = .item ∧ t.sess.role = .talker ∧ (nextOf (step t)).tx = [0x06#8] := by decide
/-- R291 (a), (c): a cancelled `?` gives the empty block and `ACK`. -/
theorem test_step_recvBlk :
    let s := { on with inp := { Inputs.quiet with hostCancel := true }, sched := quietTurns 20 }
    (nextOf (exec .recvBlk s)).tx = [0x10#8, 0x02#8, 0x10#8, 0x03#8, 0x06#8] := by decide
/-- R286's example: a device answers `50`. -/
theorem test_step_recvByte :
    let s := { on with sched := quietTurns 4 ++ [[Event.inputs (Inputs.quiet.offering 0x50#8 false)]] ++ quietTurns 4
      ++ [[Event.inputs Inputs.quiet]] ++ quietTurns 6 }
    (nextOf (exec .recvByte s)).tx = [0x50#8, 0x06#8] := by decide
/-- R287's example: after `c 3F`, `Z` releases attention and the data lines. -/
theorem test_step_busRst :
    let s := { on with
      sess := { on.sess with role := .talker }
      out := { on.out with atn := true, dio := 0x3F#8, dioOe := true }
      sched := quietTurns 9 }
    let t := nextOf (exec .busRst s)
    t.out.atn = false ∧ t.out.dioOe = false ∧ t.out.ifc = false ∧ t.sess.role = .idle ∧ t.tx = [0x06#8] := by decide
/-- R288's example: `O` answers nothing and drops configuration and REN. -/
theorem test_step_pwrOff :
    let s := { on with sess := { on.sess with writeMode := 5#3 }, sched := quietTurns 4 }
    let t := nextOf (exec .pwrOff s)
    t.tx = [] ∧ t.sess.writeMode = 0#3 ∧ t.renOut = false := by decide
/-- R300's example. -/
theorem test_step_setWriteMode :
    let t := fedStep [0x49#8, 0x42#8, 0x65#8, 0x34#8, 0x0A#8]
    t.tx = [0x06#8] ∧ t.sess.writeMode = 4#3 := by decide
/-- E2: `t 300` stores 44 with the 8-bit register and 300 with the 16-bit one. -/
theorem test_step_setByteTimeout :
    (nextOf (exec (.setByteTimeout [3, 0, 0]) { on with sched := quietTurns 5 })).tmo.byteTimeout = 44#16
    ∧ (nextOf (exec (.setByteTimeout [3, 0, 0])
        { on with cfg := { c with byteTimeoutWidth := .w16 }, sched := quietTurns 5 })).tmo.byteTimeout = 300#16 := by
  decide
/-- E2: `T 65536` stores 0. -/
theorem test_step_setTotalTimeout :
    (nextOf (exec (.setTotalTimeout [6, 5, 5, 3, 6]) { on with sched := quietTurns 5 })).tmo.totalTimeout = 0#16 := by
  decide
/-- E2: `f 70000` stores 4464. -/
theorem test_step_setFirstTimeout :
    (nextOf (exec (.setFirstTimeout [7, 0, 0, 0, 0]) { on with sched := quietTurns 5 })).tmo.firstByteTimeout = 4464#16 := by
  decide
/-- R305's example. -/
theorem test_step_setRen :
    let t := fedStep [0x49#8, 0x42#8, 0x6D#8, 0x30#8, 0x0A#8]
    t.tx = [0x06#8] ∧ t.renOut = false := by decide
/-- R306: `Q` clears the latch. -/
theorem test_step_setSrq :
    let s := { on with disp := { on.disp with srqLatched := true }, sched := quietTurns 5 }
    let t := nextOf (exec (.setSrq true) s)
    t.sess.srqMonitor = true ∧ t.disp.srqLatched = false := by decide
/-- R308's example. -/
theorem test_step_ident :
    let s := { on with cfg := { c with idString1 := [0x57#8, 0x47#8, 0x0D#8] }, sched := quietTurns 7 }
    (nextOf (exec (.ident 1) s)).tx = [0x57#8, 0x47#8, 0x0D#8] := by decide
/-- R309's two examples. -/
theorem test_step_status :
    (fedStep [0x49#8, 0x42#8, 0x53#8, 0x0A#8]).tx = [0xFE#8]
    ∧ (nextOf (exec .status
        { on with out := { on.out with atn := true }, inp := listenerWaits, sched := quietTurns 5 })).tx = [0xBA#8] := by
  decide
/-- V20. -/
theorem test_step_escStart : (nextOf (exec .escStart { holding with sched := quietTurns 4 })).tx = [0x15#8] := by decide
/-- V12. -/
theorem test_step_escEsc :
    let t := nextOf (exec .escEsc { inBlock with sched := quietTurns 1 })
    t.xfer.holdValid = true ∧ t.xfer.holdByte = 0x10#8 := by decide
/-- E1: EOI is asserted with data-valid for write mode 0. -/
theorem test_step_escEnd :
    let t := nextOf (exec .escEnd { holding with sched := quietTurns 5 })
    t.out.dav = true ∧ t.out.eoi = true ∧ t.out.dio = 0x41#8 := by decide
/-- V18, V19: a checkpoint after a payload byte, and before any. -/
theorem test_step_escChk :
    (nextOf (exec .escChk { holding with sched := quietTurns 1 })).tx = [0x06#8]
    ∧ (nextOf (exec .escChk { inBlock with sched := quietTurns 4 })).tx = [0x15#8] := by decide
/-- V21. -/
theorem test_step_escOther :
    (nextOf (exec (.escOther 0x41#8) { holding with sched := quietTurns 4 })).tx = [0x15#8] := by decide
/-- R195: the byte held goes out without EOI when the next is decoded. -/
theorem test_step_literal :
    let t := nextOf (exec (.literal 0x42#8) { holding with sched := quietTurns 5 })
    t.out.dav = true ∧ t.out.eoi = false ∧ t.out.dio = 0x41#8 := by decide
/-- V33; V66: the seventeenth body byte is answered at once. -/
theorem test_step_syntaxError :
    (fedStep [0x49#8, 0x42#8, 0x43#8, 0x0A#8]).tx = [0x15#8]
    ∧ (fedStep [0x49#8, 0x42#8, 0x43#8, 0x0A#8]).sess.powered = false
    ∧ (fedStep ([0x49#8, 0x42#8, 0x74#8] ++ List.replicate 16 0x30#8 ++ [0x0A#8])).tx = [0x15#8] := by decide
/-- V63: what a second byte that does not match opens is discarded through `TERM`, the `49 42` inside it too. -/
theorem test_step_resync :
    let t := fedStep [0x49#8, 0x58#8, 0x49#8, 0x42#8, 0x0A#8, 0x49#8]
    t.tx = [] ∧ t.rx = [0x49#8] ∧ t.pos = .leader := by decide

/-- A table word placed by `withFetchWord` is the instruction the next step runs. -/
theorem test_fetchWord_runs :
    (nextOf (step (State.reset.withFetchWord 32 0x4942530A))).tx = [0xFE#8]
    ∧ (nextOf (step (State.reset.withFetchWord 24 0x494265))).tx = [0x06#8]
    ∧ (nextOf (step (State.reset.withFetchWord 16 0x1003))).tx = [0x06#8]
    ∧ (nextOf (step (State.reset.withFetchWord 16 0x1000))).tx = [0x15#8] := by decide

/-! ## Witnesses: for each statement with hypotheses, a state and operands that meet them -/

theorem test_witness_DecodeEncodeRoundTrip :
    c.ok = true ∧ Instr.wf c (.setWriteMode [0, 7]) = true
    ∧ Instr.wf c (.syntaxError (.oversized (List.replicate 16 0x58#8) 0x58#8)) = true := by decide
theorem test_witness_EncodeDecodeExact :
    decode c .block [0x10#8, 0x05#8, 0x41#8] = .ok (.escChk, [0x41#8]) := by decide
theorem test_witness_ParseDecimal :
    (∃ b ∈ [0x31#8, 0x3A#8], b.toNat < 0x30 ∨ 0x39 < b.toNat) ∧ (∃ b ∈ [0x2F#8], b.toNat < 0x30 ∨ 0x39 < b.toNat)
    ∧ ∀ b ∈ [0x30#8, 0x39#8], 0x30 ≤ b.toNat ∧ b.toNat ≤ 0x39 := by decide
theorem test_witness_LineTable :
    parseDec [0x37#8] = some 7 ∧ parseDec [0x38#8] = some 8 ∧ parseDec [] = none
    ∧ decodeLine [0x65#8, 0x38#8] = .syntaxError (.line [0x65#8, 0x38#8])
    ∧ decodeLine [0x74#8] = .syntaxError (.line [0x74#8]) := by decide
theorem test_witness_DecStepTable :
    c.ok = true ∧ 0x02#8 ≠ c.escape ∧ 0x02#8 ≠ c.blockEnd ∧ 0x02#8 ≠ c.checkpoint := by decide
theorem test_witness_NoFalseEnd : c.ok = true ∧ 2 < (encodeBlock c [0x10#8]).length - 2 := by decide
theorem test_witness_TickAction :
    inBlock.tmo.tickArmed = true ∧ inBlock.tmo.opActive = true ∧ on.tmo.opActive = false := by decide
theorem test_witness_NthTickSetsTheFlag :
    inBlock.tmo.tickArmed = true ∧ inBlock.tmo.opActive = true ∧ inBlock.tmo.byteCtr = 0#16
    ∧ inBlock.tmo.totalCtr = 0#16 ∧ inBlock.abt.timedOut = false ∧ inBlock.tmo.byteTimeout.toNat = 31 := by decide

/-- A `?` that waits with all thresholds 0. -/
def hung : State :=
  { accepting .l2 .recvBlk with
    tmo := { (accepting .l2 .recvBlk).tmo with byteTimeout := 0#16 }
    sched := [[.tick, .hostByte 0x49#8], [.tick]] }

theorem test_witness_DisabledTimeoutsHang :
    hung.pos = .l2 ∧ hung.tmo.byteTimeout = 0#16 ∧ hung.tmo.firstByteTimeout = 0#16 ∧ hung.tmo.totalTimeout = 0#16
    ∧ hung.abt.timedOut = false ∧ hung.abt.suspended = false ∧ hung.out.dav = false ∧ hung.inp.lines.dav = false
    ∧ hung.inp.hostCancel = false ∧ silent hung.sched = true := by decide
theorem test_witness_HostChannelPolls :
    (State.dozing on).abt.suspended = true
    ∧ ((State.fed on [0x49#8] 0).abt.suspended = false ∧ (State.fed on [0x49#8] 0).rx = 0x49#8 :: [])
    ∧ (on.abt.suspended = false ∧ on.rx = []) := by decide
theorem test_witness_WaitOrder :
    (State.dozing on).abt.suspended = true
    ∧ ((State.late on).abt.suspended = false ∧ (State.late on).abt.timedOut = true)
    ∧ (on.abt.suspended = false ∧ on.abt.timedOut = false) := by decide

/-- Idle with the monitor on and the line asserted (E6). -/
def served : State :=
  { on with
    sess := { on.sess with srqMonitor := true }
    inp := { Inputs.quiet with lines := { Lines.released with srq := true } }
    sched := quietTurns 2 }

theorem test_witness_SrqPollRule :
    ¬(on.sess.powered = true ∧ on.sess.srqMonitor = true)
    ∧ (served.sess.powered = true ∧ served.sess.srqMonitor = true ∧ served.inp.lines.srq = true)
    ∧ { served with inp := Inputs.quiet }.inp.lines.srq = false := by decide
/-- E6: one notification, and no second one. -/
theorem test_witness_OneNotificationPerAssertion :
    served.idle = true ∧ served.rx = [] ∧ served.sched = quietTurns 2 ∧ (nextOf (step served)).tx = [0x07#8] := by decide
theorem test_witness_SuspendAndResume :
    let s := { State.fed on [0x49#8] 0 with abt := { on.abt with resumePending := true } }
    s.abt.suspended = false ∧ s.abt.resumePending = true ∧ s.rx = 0x49#8 :: [] := by decide
theorem test_witness_CleanupFinalGroup :
    let s := { on with pos := .k3 }
    s.pos = .k3 ∧ s.abt.suspended = false ∧ (State.dozing s).pos = .k3 ∧ (State.dozing s).abt.suspended = true := by
  decide
theorem test_witness_FinishAndBusReset : on.out.ifc = false := by decide
theorem test_witness_StepKeepsInvariant :
    inBlock.inv = true ∧ holding.inv = true ∧ draining.inv = true ∧ (accepting .l2 .recvBlk).inv = true
    ∧ (nextOf (step { holding with rx := [0x42#8], sched := quietTurns 6 })).inv = true := by decide
theorem test_witness_StepRunsDecodedCommand :
    let s := State.fed on [0x49#8, 0x42#8, 0x53#8, 0x0A#8, 0x49#8] 9
    s.pos = .leader ∧ s.phaseFits = true ∧ s.abt.suspended = false
    ∧ decodeFrom s.cfg s.parser s.rx = .ok (.status, [0x49#8]) ∧ s.sched = quietTurns (5 - 1) ++ quietTurns 5 := by
  decide
/-- The same in the middle of a line. -/
theorem test_witness_StepRunsDecodedCommand_body :
    let s : State := { State.fed on [0x34#8, 0x0A#8] 2 with
      pos := .body, disp := { on.disp with phase := .awaitCommand, leaderIdx := 1, cmdBuf := [0x65#8] } }
    s.pos = .body ∧ s.phaseFits = true ∧ decodeFrom s.cfg s.parser s.rx = .ok (.setWriteMode [4], [])
    ∧ s.sched = quietTurns (2 - 0) ++ [] := by decide
theorem test_witness_StepRunsDecodedItem :
    let s := { holding with rx := [0x10#8, 0x03#8, 0x49#8], sched := quietTurns 7 }
    s.pos = .item ∧ s.abt.suspended = false ∧ decodeItemFrom s.cfg s.xfer.codec s.rx = .ok (.escEnd, [0x49#8])
    ∧ s.sched = quietTurns (3 - 1) ++ quietTurns 5 ∧ draining.pos = .drain := by decide
theorem test_witness_StepElsewhere :
    let s := { State.late (accepting .l2 .recvBlk) with sched := [[.tick, .por]] }
    { on with pos := .ready .pwron }.pos = .ready .pwron ∧ Pos.k1.isFetch = false
    ∧ s.pos.isFetch = false ∧ s.sched = [[.tick, .por]] ∧ (s.turn [.tick, .por]).pos.isFetch = true
    ∧ (nextOf (step s)).pos = .leader ∧ (nextOf (step s)).sched = [[]] := by decide
theorem test_witness_SentBytesStay :
    let s := State.fed on [0x49#8, 0x42#8, 0x0A#8, 0x49#8] 9
    s.sched = quietTurns 9 ∧ (nextOf (step s)).rx = [0x49#8] ∧ (nextOf (step s)).tx = [] ++ [0x06#8] := by decide
theorem test_witness_NothingPassesWhileSuspended : (State.dozing on).abt.suspended = true := by decide
theorem test_witness_SuspendAbandonsFetch :
    let s := { State.dozing inBlock with sched := quietTurns 4 }
    s.pos = .item ∧ s.abt.suspended = true ∧ s.sched = quietTurns 4 ++ []
    ∧ (State.dozing on).pos = .leader ∧ (nextOf (step s)).sess.powered = false
    ∧ (State.dozing draining).pos = .drain ∧ (State.dozing draining).abt.suspended = true
    ∧ (nextOf (step { State.dozing draining with sched := quietTurns 2 })).isOff = true := by decide
theorem test_witness_SuspendEndsEveryOperation :
    let s := { State.dozing (accepting .l2 .recvBlk) with sched := quietTurns 16 }
    let b := { State.dozing inBlock with pos := .b3 0x41#8, sched := quietTurns 16 }
    let d := { State.dozing draining with sched := quietTurns 16 }
    let r := { State.dozing { on with
      disp := { on.disp with phase := .dispatch, curCmd := some .status }, pos := .ready .status } with
      sched := quietTurns 16 }
    (s.inv = true ∧ s.abt.suspended = true ∧ s.sched = quietTurns 16 ++ [] ∧ (nextOf (step s)).isOff = true)
    ∧ (b.inv = true ∧ b.abt.suspended = true ∧ b.disp.curCmd = some .sendBlk ∧ (nextOf (step b)).pos = .item)
    ∧ (d.inv = true ∧ d.pos = .drain ∧ (nextOf (step d)).isOff = true)
    ∧ (r.inv = true ∧ (nextOf (step r)).isOff = true ∧ (nextOf (step r)).tx = []) := by decide

/-- Two quiet turns with a tick and a change of the inputs. -/
def calm : List Turn := [[.tick], [.inputs listenerWaits, .hostByte 0x49#8]]

theorem test_witness_ConfigWritersAreSeparate :
    undisturbed calm = true ∧ { on with sched := calm }.abt.suspended = false ∧ Instr.status ≠ .pwrOff
    ∧ (∀ x, Instr.status ≠ .setSrq x) ∧ inBlock.disp.phase ≠ .awaitLeader := by decide
theorem test_witness_FramesOfTheBus :
    undisturbed calm = true ∧ leavesTheBus .status = true ∧ on.abt.suspended = false := by decide
theorem test_witness_WriteModeClassOnly :
    let s := { on with sess := { on.sess with writeMode := 4#3 } }
    let s' := { on with sess := { on.sess with writeMode := 7#3 } }
    s.modeClass = s'.modeClass ∧ s ≠ s' := by decide
theorem test_witness_UnspecifiedElementsUnread :
    let s' := { on with xfer := { on.xfer with dir := .receive, holdByte := 0x41#8, eoiPolicy := true } }
    on.inv = true ∧ s'.inv = true ∧ on.blind = s'.blind ∧ on ≠ s' := by decide
theorem test_witness_PowerCommandsComplete :
    State.reset.abt.suspended = false ∧ State.reset.inp.txFull = false
    ∧ { State.reset with sched := quietTurns 6 }.sched = quietTurns (State.reset.beginning + 4) ++ []
    ∧ { on with sched := quietTurns 4 }.sched = quietTurns 4 ++ [] := by decide
theorem test_witness_BusResetCompletes :
    on.canSend = true ∧ { on with sched := quietTurns 7 }.sched = quietTurns (on.beginning + 6) ++ [] := by decide
theorem test_witness_BusResetIsIdempotent :
    let s := { on with sched := quietTurns 14 }
    s.inv = true ∧ s.idle = true ∧ s.canSend = true ∧ s.sess.powered = true ∧ s.sched = quietTurns 14 ++ [] := by decide
theorem test_witness_WriteModeCompletes :
    on.canSend = true ∧ Digits.parse [7] = some 7 ∧ on.beginning = 1
    ∧ { on with sched := quietTurns 5 }.sched = quietTurns (on.beginning + 4) ++ [] := by decide
theorem test_witness_TimeoutsComplete :
    on.canSend = true ∧ Digits.parse [6, 5, 5, 3, 6] = some 65536 ∧ Digits.parse [0] = some 0
    ∧ { on with sched := quietTurns 5 }.sched = quietTurns (on.beginning + 4) ++ [] := by decide
theorem test_witness_PoliciesComplete :
    on.canSend = true ∧ { on with sched := quietTurns 5 }.sched = quietTurns (on.beginning + 4) ++ [] := by decide
theorem test_witness_QueriesComplete :
    on.canSend = true
    ∧ { on with sched := quietTurns 4 }.sched = quietTurns (on.beginning + (on.cfg.idString 0).length + 3) ++ []
    ∧ { on with sched := quietTurns 5 }.sched = quietTurns (on.beginning + 4) ++ [] := by decide
theorem test_witness_BadInputCompletes :
    let s := State.fed on [0x41#8, 0x0A#8, 0x49#8] 6
    s.abt.suspended = false ∧ s.inp.txFull = false ∧ s.rx = [0x41#8] ++ s.cfg.term :: [0x49#8] ∧ s.cfg.term ∉ [0x41#8]
    ∧ s.abt.resumePending = false ∧ s.disp.curCmd = none ∧ s.sched = quietTurns (1 + 5) ++ []
    ∧ (BadLeader.first 0x0A#8).byte = s.cfg.term ∧ (BadLeader.second 0x58#8).byte ≠ s.cfg.term := by decide
/-- The operands of the clauses that R316 rejects. -/
theorem test_witness_BadInputCompletes_operands :
    Digits.parse [8] = some 8 ∧ 7 < 8 ∧ Digits.parse [] = none := by decide
/-- The middle of the handshake and its end. -/
theorem test_witness_BusCommandsComplete :
    let m := { on with inp := listenerWaits, sched := quietTurns (1 + 7) }
    let s := { on with
      inp := listenerWaits, sched := quietTurns (1 + 7 + 2) ++ [Event.inputs listenerTook] :: (quietTurns 7 ++ []) }
    s.canSend = true ∧ s.abt.timedOut = false ∧ s.linesFitRole = true ∧ s.inp.lines.nrfd = false
    ∧ s.inp.lines.ndac = true ∧ listenerTook.lines.ndac = false ∧ listenerTook.txFull = false
    ∧ s.sched = quietTurns (s.beginning + 7 + 2) ++ [Event.inputs listenerTook] :: (quietTurns 7 ++ [])
    ∧ m.out.eoi = false ∧ m.sched = quietTurns (m.beginning + 7)
    ∧ (nextOf (exec (.busCmdRelease 0x3F#8) m)).out.dav = true
    ∧ (nextOf (exec (.busCmdRelease 0x3F#8) m)).out.atn = true := by decide
theorem test_witness_CommandWithoutListener :
    let s := { on with
      tmo := { on.tmo with byteTimeout := 3#16 }
      sched := quietTurns 4 ++ List.replicate 3 Event.tick :: (quietTurns 9 ++ []) }
    s.canSend = true ∧ s.linesFitRole = true ∧ s.tmo.tickArmed = true ∧ s.inp.lines.nrfd = false
    ∧ s.inp.lines.ndac = false ∧ 3 = s.tmo.byteTimeout.toNat ∧ s.tmo.firstByteTimeout = 0#16
    ∧ s.sched = quietTurns (s.beginning + 3) ++ List.replicate 3 Event.tick :: (quietTurns 9 ++ []) := by decide
theorem test_witness_BlockOpens :
    on.linesFitRole = true ∧ { on with sched := quietTurns 4 }.sched = quietTurns (on.beginning + 3) ++ [] := by decide
theorem test_witness_PayloadItemsComplete :
    let f := { inBlock with sched := [] :: [] }
    let m := { holding with sched := quietTurns 5 }
    let s := { holding with sched := quietTurns (5 + 1) ++ [Event.inputs listenerTook] :: (quietTurns 3 ++ []) }
    (f.pos = .item ∧ f.abt.timedOut = false ∧ f.abt.suspended = false ∧ f.roleFits = true ∧ f.linesFitRole = true
      ∧ 0x42#8 ≠ f.cfg.escape ∧ f.xfer.holdValid = false ∧ f.sched = [] :: [])
    ∧ (m.pos = .item ∧ m.abt.timedOut = false ∧ m.abt.suspended = false ∧ m.roleFits = true ∧ m.linesFitRole = true
      ∧ m.xfer.holdValid = true ∧ m.inp.lines.nrfd = false ∧ m.inp.lines.ndac = true ∧ m.out.eoi = false
      ∧ m.sched = quietTurns 5 ∧ (nextOf (exec (.literal 0x42#8) m)).out.dav = true)
    ∧ (s.pos = .item ∧ s.xfer.holdValid = true ∧ listenerTook.lines.ndac = false
      ∧ s.sched = quietTurns (5 + 1) ++ [Event.inputs listenerTook] :: (quietTurns 3 ++ [])
      ∧ (nextOf (exec (.literal 0x42#8) s)).xfer.holdByte = 0x42#8
      ∧ (nextOf (exec (.literal 0x42#8) s)).out.dio = 0x41#8) := by decide
theorem test_witness_BlockEndCompletes :
    (inBlock.cfg.ok = true ∧ inBlock.pos = .item ∧ inBlock.canSend = true ∧ inBlock.abt.timedOut = false
      ∧ inBlock.inv = true ∧ inBlock.xfer.holdValid = false)
    ∧ (holding.canSend = true ∧ holding.inv = true ∧ holding.xfer.holdValid = true ∧ holding.inp.lines.nrfd = false
      ∧ holding.inp.lines.ndac = true ∧ listenerTook.lines.ndac = false ∧ listenerTook.txFull = false) := by decide
theorem test_witness_CheckpointCompletes :
    holding.cfg.ok = true ∧ holding.pos = .item ∧ holding.canSend = true ∧ holding.xfer.seenFirst = true := by decide
theorem test_witness_ViolationsComplete :
    inBlock.cfg.ok = true ∧ inBlock.pos = .item ∧ inBlock.canSend = true ∧ inBlock.xfer.seenFirst = false
    ∧ 0x41#8 ∉ [c.escape, c.blockEnd, c.checkpoint, c.blockStart] := by decide
theorem test_witness_DrainItems :
    draining.cfg.ok = true ∧ draining.pos = .drain ∧ draining.abt.suspended = false ∧ 0x41#8 ≠ draining.cfg.escape
    ∧ draining.xfer.seenFirst = true ∧ 0x41#8 ∉ [c.escape, c.blockEnd, c.checkpoint] := by decide
/-- R291's example: a talker sends `2B 31 0A` with EOI. -/
theorem test_witness_ReceiveBlockDelivers :
    let p := [0x2B#8, 0x31#8, 0x0A#8]
    let s := { on with sched := quietTurns (1 + 5) ++ talkerTurns c Inputs.quiet p ++ quietTurns 6 ++ [] }
    s.canSend = true ∧ s.linesFitRole = true ∧ Inputs.quiet.restful = true ∧ p ≠ []
    ∧ s.sched = quietTurns (s.beginning + 5) ++ talkerTurns s.cfg Inputs.quiet p ++ quietTurns 6 ++ []
    ∧ (nextOf (exec .recvBlk s)).tx = [0x10#8, 0x02#8, 0x2B#8, 0x31#8, 0x0A#8, 0x10#8, 0x03#8, 0x06#8] := by decide
theorem test_witness_ReceiveBlockWithoutTalker :
    let s := { on with sched := quietTurns (1 + 6) ++ List.replicate 31 Event.tick :: (quietTurns 7 ++ []) }
    s.canSend = true ∧ s.linesFitRole = true ∧ s.tmo.tickArmed = true ∧ s.sess.role ≠ .listener
    ∧ s.inp.restful = true ∧ s.tmo.firstByteTimeout = 0#16 ∧ s.tmo.byteTimeout.toNat = 31
    ∧ s.sched = quietTurns (s.beginning + 6) ++ List.replicate 31 Event.tick :: (quietTurns 7 ++ []) := by decide
theorem test_witness_ReceiveByteCompletes :
    on.canSend = true ∧ on.linesFitRole = true ∧ on.abt.timedOut = false ∧ on.inp.lines.dav = false
    ∧ on.tmo.tickArmed = true ∧ on.sess.role ≠ .listener ∧ on.tmo.firstByteTimeout = 0#16
    ∧ on.tmo.byteTimeout.toNat = 31 ∧ Inputs.quiet.lines.dav = false ∧ Inputs.quiet.txFull = false := by decide
/-- R332: a cancel held from before `B` to after it changes nothing; two polls more at each wait. -/
theorem test_recvByte_ignores_cancel :
    let i := { Inputs.quiet with hostCancel := true }
    let s := { on with inp := i, sched := quietTurns 6 ++ [[Event.inputs (i.offering 0x50#8 true)]] ++ quietTurns 6
      ++ [[Event.inputs i]] ++ quietTurns 6 }
    (nextOf (exec .recvByte s)).tx = [0x50#8, 0x06#8] ∧ (nextOf (exec .recvByte s)).pos = .leader := by decide
/-- R283's three codes, at the three waits. -/
theorem test_witness_SourceTimeouts :
    let s := State.late (sourcing (.src .s2 0x3F#8 false (.command true)) (.busCmd 0x3F#8 true))
    let heldBack := { s with
      pos := .src .s3 0x3F#8 false (.command true), inp := listenerTook }
    let refused := { s with
      pos := .src .s6 0x3F#8 false (.command true), inp := listenerWaits }
    s.abt.timedOut = true ∧ s.canSend = true ∧ s.disp.curCmd ≠ some .sendBlk ∧ s.nrfdIn = false ∧ s.ndacIn = false
    ∧ heldBack.nrfdIn = true ∧ refused.ndacIn = true := by decide
theorem test_witness_BlockTimeoutDrains :
    let s := State.late { sourcing (.src .s2 0x41#8 false (.data 0x42#8)) .sendBlk with inp := Inputs.quiet }
    s.pos = .src .s2 0x41#8 false (.data 0x42#8) ∧ s.abt.timedOut = true ∧ s.canSend = true
    ∧ s.disp.curCmd = some .sendBlk ∧ s.xfer.blockDone = false ∧ s.nrfdIn = false ∧ s.ndacIn = false
    ∧ { s with inp := listenerTook }.nrfdIn = true ∧ { s with inp := listenerWaits }.ndacIn = true := by decide
/-- R322, the column "Drain after": the last byte of a block, with EOI, that nobody takes. -/
theorem test_witness_BlockTimeoutDrains_last :
    let p := State.late { sourcing (.src .s6 0x41#8 true .last) .sendBlk with inp := listenerWaits }
    let s := { p with xfer := { p.xfer with blockDone := true, holdByte := 0x41#8, holdValid := true }
                      sched := quietTurns 9 }
    s.pos = .src .s6 0x41#8 true .last ∧ s.abt.timedOut = true ∧ s.canSend = true
    ∧ s.disp.curCmd = some .sendBlk ∧ s.xfer.blockDone = true ∧ s.ndacIn = true
    ∧ (nextOf (step s)).tx = [0x02#8] ∧ (nextOf (step s)).pos = .leader
    ∧ (nextOf (step s)).xfer.holdValid = false := by decide
theorem test_witness_AcceptorWaitsEnd :
    let held := State.late { accepting (.l7 false) .recvBlk with inp := talkerHolds }
    let heldByte := State.late { accepting .y7 .recvByte with inp := talkerHolds }
    let empty := State.late (accepting .l2 .recvBlk)
    let cancelled := { accepting .l2 .recvBlk with inp := { Inputs.quiet with hostCancel := true } }
    (held.canSend = true ∧ held.disp.curCmd ≠ some .sendBlk ∧ held.davIn = true ∧ held.abt.timedOut = true)
    ∧ (heldByte.canSend = true ∧ heldByte.davIn = true ∧ heldByte.pos = .y7)
    ∧ (empty.canSend = true ∧ empty.davIn = false ∧ empty.abt.timedOut = true)
    ∧ (cancelled.canSend = true ∧ cancelled.davIn = false ∧ cancelled.abt.timedOut = false
      ∧ cancelled.inp.hostCancel = true) := by decide

/-- A tick in every turn is a fair tick. -/
theorem test_ticks_are_fair (s : State) : TickFair (fun _ => [Event.tick]) s :=
  fun n _ => ⟨n, Nat.le_refl n, List.mem_cons_self ..⟩

theorem test_witness_ForwardProgress :
    let w := accepting .l2 .recvBlk
    let full := { Inputs.quiet with txFull := true }
    let p := { on with inp := full, pos := .put [0x06#8] .cleanup }
    let r := { on with pos := .resync, disp := { on.disp with phase := .awaitCommand } }
    (w.pos.waits = true ∧ w.sched = [] ∧ w.tmo.tickArmed = true ∧ w.tmo.opActive = true ∧ w.tmo.byteBound ≠ none
      ∧ (fg w).pos = w.pos ∧ (execution (fun _ => [.tick]) w 31).pos = .l2f (.failed .noData))
    ∧ (p.pos = .put (0x06#8 :: []) .cleanup ∧ p.inp.txFull = true ∧ p.abt.suspended = false)
    ∧ (r.pos = .resync ∧ r.rx = [] ∧ r.abt.suspended = false ∧ r.disp.phase ≠ .awaitLeader) := by decide

end Sys2Proof.Tests
end

section
/-! PROOF. A step away from a fetch position (R16, R91, R93): the equations of `step` at a parsed command and in the
middle of an instruction, and a run through one turn. -/

namespace Sys2Proof.Machine

/-- A command that has been parsed is executed. -/
theorem step_ready (s : State) (i : Instr) (h : s.pos = .ready i) : step s = exec i s := by
  simp only [step, h]

/-- In the middle of an instruction a step is the run through the schedule. -/
theorem step_midway (s : State) (h : s.pos.isFetch = false) : step s = .next s.run := by
  rcases step_cases s with ⟨i, hp, -⟩ | ⟨hf, -⟩ | ⟨hf, -⟩ | ⟨hf, -⟩ | ⟨-, he⟩
  · rw [hp] at h; cases h
  · rw [h] at hf; cases hf
  · rw [h] at hf; cases hf
  · rw [h] at hf; cases hf
  · exact he

/-- A run through one turn is the turn's events and one foreground step, which a power-on reset among the events leaves
to the fetch (R61). -/
theorem runTurns_one (t : Turn) (s : State) (h : s.pos.isFetch = false) :
    runTurns [t] s = if (s.turn t).pos.isFetch then { s.turn t with sched := [[]] }
      else { fg (s.turn t) with sched := [] } := by
  cases ht : (s.turn t).pos.isFetch with
  | true => rw [runTurns_reset _ _ _ h ht, if_pos rfl]
  | false => rw [runTurns_cons _ _ _ h ht, runTurns_nil, if_neg Bool.false_ne_true]

/-- Settles O28: a parsed command by `step_ready`; in the middle of an instruction the step is the run through the one
turn there is. -/
theorem stepElsewhere : Obligations.StepElsewhere := by
  unfold Obligations.StepElsewhere
  refine ⟨step_ready, fun s t h hs => ?_⟩
  rw [step_midway s h, run_eq, hs, runTurns_one t s h]

end Sys2Proof.Machine
end

section
/-! PROOF. Reset, power-on reset and the invariant at reset (R60 to R62). `State.loadDefaults` and `State.por` are one
atomic group of writes each, with no branch, so each field is what the group writes. -/

namespace Sys2Proof.Machine

/-- Settles O18: `LoadDefaults` has no branch, so its result is by definition the state with that group written. -/
theorem loadDefaultsRegisters : Obligations.LoadDefaultsRegisters := by
  unfold Obligations.LoadDefaultsRegisters
  intro s
  rfl

/-- A power-on reset is `LoadDefaults` with the power off, the tick armed, the data byte register cleared, and the abort
registers, transfer context, dispatcher and position at their reset values (R61, R62). -/
theorem por_eq_loadDefaults (s : State) :
    s.por =
      { s.loadDefaults with
        sess := { s.loadDefaults.sess with powered := false }
        tmo := { s.loadDefaults.tmo with tickArmed := true }
        abt := { timedOut := false, suspended := false, failReason := none, resumePending := false }
        xfer :=
          { dir := .send, eoiPolicy := false, codec := .normal, seenFirst := false, blockDone := false,
            holdValid := false, holdByte := 0#8 }
        disp := { phase := .awaitLeader, leaderIdx := 0, cmdBuf := [], curCmd := none, srqLatched := false }
        out := { s.loadDefaults.out with dio := 0#8 }
        pos := .leader } := rfl

/-- Settles O19: each part read off `por_eq_loadDefaults`. -/
theorem powerOnReset : Obligations.PowerOnReset := by
  unfold Obligations.PowerOnReset
  intro s
  rw [por_eq_loadDefaults]
  exact ⟨rfl, rfl, rfl, rfl, rfl, rfl, rfl, rfl, rfl, rfl, rfl, rfl, rfl, rfl⟩

/-- Settles O23: the invariant is a computable predicate and the reset state one closed term. -/
theorem resetInvariant : Obligations.ResetInvariant := by
  unfold Obligations.ResetInvariant
  decide

end Sys2Proof.Machine
end

section
/-! PROOF. What reads and what writes `write_mode` (R23, R300). Nearly every operation works the same whatever
`write_mode` holds: `State.withMode` goes through it unchanged. The exceptions are the groups that overwrite it
(`LoadDefaults`, power-on reset, `e`), and B0 of `SendBlock`, its only reader, which tests its class (R190). -/

namespace Sys2Proof.Machine

/-! ## States of one class -/

/-- The state with another value in `write_mode`. -/
def State.withMode (s : State) (m : BitVec 3) : State := { s with sess := { s.sess with writeMode := m } }

/-- Two values of one class give states of one class. -/
theorem withMode_modeClass {m n : BitVec 3} (h : m.toNat < 4 ↔ n.toNat < 4) (s : State) :
    (s.withMode m).modeClass = (s.withMode n).modeClass := by
  have hc : (if m.toNat < 4 then 0#3 else 4#3) = if n.toNat < 4 then 0#3 else 4#3 :=
    ite_congr (propext h) (fun _ => rfl) fun _ => rfl
  exact congrArg s.withMode hc

/-- States of one class are one state with two values of one class in `write_mode`. -/
theorem exists_withMode {s s' : State} (h : s.modeClass = s'.modeClass) :
    ∃ (u : State) (m n : BitVec 3), (m.toNat < 4 ↔ n.toNat < 4) ∧ s = u.withMode m ∧ s' = u.withMode n := by
  have hc : (if s.sess.writeMode.toNat < 4 then 0#3 else 4#3) = if s'.sess.writeMode.toNat < 4 then 0#3 else 4#3 :=
    congrArg (fun t => t.sess.writeMode) h
  refine ⟨s.modeClass, s.sess.writeMode, s'.sess.writeMode, ?_, rfl, by rw [h]; rfl⟩
  split at hc <;> split at hc
  case isTrue.isTrue h1 h2 => exact iff_of_true h1 h2
  case isFalse.isFalse h1 h2 => exact iff_of_false h1 h2
  all_goals exact absurd hc (by decide)

/-- What states of one class share, among what the runs look at. -/
theorem fields_of_modeClass {s s' : State} (h : s.modeClass = s'.modeClass) :
    s.cfg = s'.cfg ∧ s.pos = s'.pos ∧ s.sched = s'.sched ∧ s.abt = s'.abt ∧ s.sess.powered = s'.sess.powered := by
  obtain ⟨u, m, n, -, rfl, rfl⟩ := exists_withMode h
  exact ⟨rfl, rfl, rfl, rfl, rfl⟩

/-- The operation leads from states of one class to states of one class. -/
def ModeClassOnly (f : State → State) : Prop :=
  ∀ s s' : State, s.modeClass = s'.modeClass → (f s).modeClass = (f s').modeClass

/-- An operation that neither reads nor writes `write_mode`. -/
theorem ModeClassOnly.of_commutes {f : State → State} (hf : ∀ s m, f (s.withMode m) = (f s).withMode m) :
    ModeClassOnly f := by
  intro s s' h
  obtain ⟨u, m, n, hmn, rfl, rfl⟩ := exists_withMode h
  rw [hf, hf]
  exact withMode_modeClass hmn _

/-- An operation that overwrites `write_mode` without reading it. -/
theorem ModeClassOnly.of_overwrites {f : State → State} (hf : ∀ s m, f (s.withMode m) = f s) : ModeClassOnly f := by
  intro s s' h
  obtain ⟨u, m, n, -, rfl, rfl⟩ := exists_withMode h
  rw [hf, hf]

/-! ## What an operation sees of a state with another `write_mode` -/

@[simp] theorem withMode_cfg (s : State) (m : BitVec 3) : (s.withMode m).cfg = s.cfg := rfl
@[simp] theorem withMode_abt (s : State) (m : BitVec 3) : (s.withMode m).abt = s.abt := rfl
@[simp] theorem withMode_xfer (s : State) (m : BitVec 3) : (s.withMode m).xfer = s.xfer := rfl
@[simp] theorem withMode_disp (s : State) (m : BitVec 3) : (s.withMode m).disp = s.disp := rfl
@[simp] theorem withMode_pos (s : State) (m : BitVec 3) : (s.withMode m).pos = s.pos := rfl
@[simp] theorem withMode_rx (s : State) (m : BitVec 3) : (s.withMode m).rx = s.rx := rfl
@[simp] theorem withMode_inp (s : State) (m : BitVec 3) : (s.withMode m).inp = s.inp := rfl
@[simp] theorem withMode_parser (s : State) (m : BitVec 3) : (s.withMode m).parser = s.parser := rfl
@[simp] theorem withMode_decMode (s : State) (m : BitVec 3) : (s.withMode m).decMode = s.decMode := rfl

@[simp] theorem withMode_ite (p : Prop) [Decidable p] (s t : State) (m : BitVec 3) :
    (if p then s else t).withMode m = if p then s.withMode m else t.withMode m := apply_ite (·.withMode m) p s t

/-! ## The updates -/

@[simp] theorem goto_withMode (s : State) (m : BitVec 3) (p : Pos) :
    (s.withMode m).goto p = (s.goto p).withMode m := rfl
@[simp] theorem drive_withMode (s : State) (m : BitVec 3) (f : BusOut → BusOut) :
    (s.withMode m).drive f = (s.drive f).withMode m := rfl
@[simp] theorem setXfer_withMode (s : State) (m : BitVec 3) (f : Transfer → Transfer) :
    (s.withMode m).setXfer f = (s.setXfer f).withMode m := rfl
@[simp] theorem stamp_withMode (s : State) (m : BitVec 3) (r : Option Reason) :
    (s.withMode m).stamp r = (s.stamp r).withMode m := rfl
@[simp] theorem push_withMode (s : State) (m : BitVec 3) (b : Byte) :
    (s.withMode m).push b = (s.push b).withMode m := rfl
@[simp] theorem byteDone_withMode (s : State) (m : BitVec 3) : (s.withMode m).byteDone = s.byteDone.withMode m := rfl
@[simp] theorem toCleanup_withMode (s : State) (m : BitVec 3) : (s.withMode m).toCleanup = s.toCleanup.withMode m := rfl

theorem needTalker_withMode (s : State) (m : BitVec 3) : (s.withMode m).needTalker = s.needTalker.withMode m := by
  unfold State.needTalker
  rw [withMode_ite]
  rfl

theorem needListener_withMode (s : State) (m : BitVec 3) : (s.withMode m).needListener = s.needListener.withMode m := by
  unfold State.needListener
  rw [withMode_ite]
  rfl

theorem replyWith_withMode (s : State) (m : BitVec 3) (bs : List Byte) :
    (s.withMode m).replyWith bs = (s.replyWith bs).withMode m := by
  simp [replyWith_eq]

theorem setParser_withMode (s : State) (m : BitVec 3) (st : ParseState) :
    (s.withMode m).setParser st = (s.setParser st).withMode m := by
  cases st <;> rfl

@[simp] theorem finish_withMode (r : Result) (s : State) (m : BitVec 3) :
    finish r (s.withMode m) = (finish r s).withMode m := by
  unfold finish
  cases hc : r.code s.cfg with
  | none => simp [hc]
  | some b => simp [hc, State.replyWith]

theorem tick_withMode (s : State) (m : BitVec 3) : tick (s.withMode m) = (tick s).withMode m := by
  unfold tick
  rw [withMode_ite]
  rfl

/-! ## The polls -/

theorem srqPoll_withMode (s : State) (m : BitVec 3) : srqPoll (s.withMode m) = (srqPoll s).withMode m := by
  simp only [srqPoll, withMode_ite]
  rfl

theorem resumed_withMode (s : State) (m : BitVec 3) : (s.withMode m).resumed = s.resumed.withMode m := by
  unfold State.resumed
  rw [withMode_ite]
  rfl

/-- A poll of `HostGet` with another value in `write_mode` of its state. -/
def GetPoll.withMode (m : BitVec 3) : GetPoll → GetPoll
  | .abort => .abort
  | .empty s => .empty (s.withMode m)
  | .byte b s => .byte b (s.withMode m)

theorem hostGet_withMode (s : State) (m : BitVec 3) : hostGet (s.withMode m) = (hostGet s).withMode m := by
  unfold hostGet
  rw [withMode_abt, withMode_rx]
  cases s.abt.suspended with
  | true => rfl
  | false =>
    cases s.rx with
    | nil => simp [GetPoll.withMode, srqPoll_withMode]
    | cons b rest => exact congrArg (GetPoll.byte b) (resumed_withMode { s with rx := rest } m)

/-- A wait whose outcome's continuation does not see `write_mode` does not see it either. -/
theorem polling_wait_withMode (cond : Bool) (r : Reason) (c : Bool) (s : State) (m : BitVec 3)
    (k : Result → State → State) (hk : ∀ w t, k w (t.withMode m) = (k w t).withMode m) :
    polling (wait cond r c (s.withMode m)) (s.withMode m) k = (polling (wait cond r c s) s k).withMode m := by
  have hw : wait cond r c (s.withMode m) = (wait cond r c s).map fun p => (p.1, p.2.withMode m) := by
    simp only [wait, apply_ite (Option.map _)]
    rfl
  rw [hw]
  cases wait cond r c s with
  | none => rfl
  | some p => exact hk p.1 p.2

/-! ## The foreground -/

@[simp] theorem receiveFin_withMode (w : Result) (s : State) (m : BitVec 3) :
    receiveFin w (s.withMode m) = (receiveFin w s).withMode m := by
  simp [receiveFin, receiveReturned]

theorem putDone_withMode (k : PutReturn) (sent : Bool) (s : State) (m : BitVec 3) :
    putDone k sent (s.withMode m) = (putDone k sent s).withMode m := by
  cases k <;> simp [putDone, receiveReturned]

theorem putStep_withMode (bs : List Byte) (k : PutReturn) (s : State) (m : BitVec 3) :
    putStep bs k (s.withMode m) = (putStep bs k s).withMode m := by
  cases bs with
  | nil => exact putDone_withMode k true s m
  | cons b rest =>
    cases hs : s.abt.suspended <;> cases ht : s.inp.txFull <;> simp [putStep, hostPut, hs, ht, putDone_withMode]

theorem resyncStep_withMode (s : State) (m : BitVec 3) : resyncStep (s.withMode m) = (resyncStep s).withMode m := by
  unfold resyncStep
  rw [hostGet_withMode]
  cases hostGet s with
  | abort | empty _ => rfl
  | byte b t => exact (withMode_ite (b = t.cfg.term) t.toCleanup t m).symm

theorem srcWaited_withMode (next : SrcStep) (b : Byte) (eoi : Bool) (k : SrcReturn) (w : Result) (s : State)
    (m : BitVec 3) : srcWaited next b eoi k w (s.withMode m) = (srcWaited next b eoi k w s).withMode m := by
  cases w <;> rfl

theorem srcReturned_withMode (k : SrcReturn) (s : State) (m : BitVec 3) :
    srcReturned k (s.withMode m) = (srcReturned k s).withMode m := by
  cases k <;> simp [srcReturned]

theorem srcFailed_withMode (w : Result) (k : SrcReturn) (s : State) (m : BitVec 3) :
    srcFailed w k (s.withMode m) = (srcFailed w k s).withMode m := by
  cases k <;> simp [srcFailed]

theorem srcStep_withMode (st : SrcStep) (b : Byte) (eoi : Bool) (k : SrcReturn) (s : State) (m : BitVec 3) :
    srcStep st b eoi k (s.withMode m) = (srcStep st b eoi k s).withMode m := by
  cases st with
  | s1 | s5 | s7 => rfl
  | s2 | s3 | s6 => exact polling_wait_withMode _ _ _ s m _ fun w t => srcWaited_withMode _ b eoi k w t m
  | s4 => cases eoi <;> rfl
  | s8 => exact srcReturned_withMode k s.byteDone m
  | sf w => simp [srcStep, srcFailed_withMode]

theorem cleanupK2_withMode (s : State) (m : BitVec 3) : cleanupK2 (s.withMode m) = (cleanupK2 s).withMode m := by
  unfold cleanupK2
  rw [withMode_ite]
  rfl

/-- A foreground step, but for B0 and K3, neither reads nor writes `write_mode`. -/
theorem fg_withMode (s : State) (m : BitVec 3) (hb : s.pos ≠ .b0) (hk : s.pos ≠ .k3) :
    fg (s.withMode m) = (fg s).withMode m := by
  unfold fg
  rw [withMode_pos]
  cases hp : s.pos with
  | b0 => exact absurd hp hb
  | k3 => exact absurd hp hk
  | resync => exact resyncStep_withMode s m
  | put bs k => exact putStep_withMode bs k s m
  | src st b eoi k => exact srcStep_withMode st b eoi k s m
  | c3 r release => simp [sendCommandC3, ← withMode_ite]
  | l2 | y2 => exact polling_wait_withMode _ _ _ s m _ fun w t => by simp
  | l7 eoi | y7 => exact polling_wait_withMode _ _ _ s m _ fun _ _ => rfl
  | l2f w => simp [receiveL2Failed]
  | l8 w eoi => simp [receiveL8]
  | l9 eoi => simp [receiveL9]
  | y2f w => simp [receiveByteY2Failed]
  | y8 w => simp [receiveByteY8]
  | y9 => simp [receiveByteY9]
  | busReset st b => cases st <;> rfl
  | k2 => exact cleanupK2_withMode s m
  | _ => rfl

/-- The first item of a block-send, with the EOI policy to follow in it (R190). -/
def State.blockOpened (s : State) (eoi : Bool) : State :=
  (s.setXfer fun x => { x.decInit with eoiPolicy := eoi }).goto .item

theorem sendBlockB0_withMode (s : State) (m : BitVec 3) :
    sendBlockB0 (s.withMode m) = (s.blockOpened (decide (m.toNat < 4))).withMode m := rfl

/-- B0 reads `write_mode`, and of it only the class: `eoi_enabled = (write_mode < 4)` (R190). -/
theorem sendBlockB0_modeClassOnly : ModeClassOnly sendBlockB0 := by
  intro s s' h
  obtain ⟨u, m, n, hmn, rfl, rfl⟩ := exists_withMode h
  rw [sendBlockB0_withMode, sendBlockB0_withMode, decide_eq_decide.mpr hmn]
  exact withMode_modeClass hmn _

/-- K3 overwrites `write_mode` when a suspend is cleaned up, and leaves it otherwise. -/
theorem cleanupK3_modeClassOnly : ModeClassOnly cleanupK3 := by
  intro s s' h
  have hcycle : ModeClassOnly State.cycleStart := .of_commutes fun _ _ => rfl
  have hsuspend : ModeClassOnly State.suspendCleanup := .of_overwrites fun _ _ => rfl
  obtain ⟨-, -, -, ha, -⟩ := fields_of_modeClass h
  unfold cleanupK3
  rw [← ha]
  split
  · exact hcycle _ _ (hsuspend _ _ h)
  · exact hcycle _ _ h

theorem fg_modeClassOnly : ModeClassOnly fg := by
  intro s s' h
  obtain ⟨u, m, n, hmn, rfl, rfl⟩ := exists_withMode h
  by_cases hb : u.pos = .b0
  · simpa [fg, hb] using sendBlockB0_modeClassOnly _ _ h
  · by_cases hk : u.pos = .k3
    · simpa [fg, hk] using cleanupK3_modeClassOnly _ _ h
    · rw [fg_withMode u m hb hk, fg_withMode u n hb hk]
      exact withMode_modeClass hmn _

end Sys2Proof.Machine
end

section
/-! PROOF. Runs from states of one class of `write_mode` (R23, R300): the events, the turns, the fetch, every
instruction, and a step. -/

namespace Sys2Proof.Machine

/-! ## Turns and runs -/

/-- Of the events only a power-on reset acts on `write_mode`. -/
theorem act_modeClassOnly (e : Event) : ModeClassOnly e.act := by
  cases e with
  | por => exact .of_overwrites fun _ _ => rfl
  | tick => exact .of_commutes tick_withMode
  | suspend | hostByte _ | rxFlush | inputs _ => exact .of_commutes fun _ _ => rfl

theorem turn_modeClassOnly (t : Turn) : ModeClassOnly (·.turn t) := by
  induction t with
  | nil => exact fun _ _ h => h
  | cons e t ih => exact fun s s' h => ih _ _ (act_modeClassOnly e s s' h)

theorem setSched_modeClassOnly (ts : List Turn) : ModeClassOnly fun s => { s with sched := ts } :=
  .of_commutes fun _ _ => rfl

theorem runTurns_modeClassOnly (ts : List Turn) : ModeClassOnly (runTurns ts) := by
  induction ts with
  | nil => exact setSched_modeClassOnly []
  | cons t ts ih =>
    intro s s' h
    have ht : (s.turn t).modeClass = (s'.turn t).modeClass := turn_modeClassOnly t s s' h
    obtain ⟨-, hp, -⟩ := fields_of_modeClass h
    obtain ⟨-, hpt, -⟩ := fields_of_modeClass ht
    cases hf : s.pos.isFetch with
    | true =>
      rw [runTurns_fetch _ _ hf, runTurns_fetch _ _ (hp ▸ hf)]
      exact setSched_modeClassOnly _ _ _ h
    | false =>
      cases hft : (s.turn t).pos.isFetch with
      | true =>
        rw [runTurns_reset _ _ _ hf hft, runTurns_reset _ _ _ (hp ▸ hf) (hpt ▸ hft)]
        exact setSched_modeClassOnly _ _ _ ht
      | false =>
        rw [runTurns_cons _ _ _ hf hft, runTurns_cons _ _ _ (hp ▸ hf) (hpt ▸ hft)]
        exact ih _ _ (fg_modeClassOnly _ _ ht)

theorem run_modeClassOnly : ModeClassOnly State.run := by
  intro s s' h
  obtain ⟨-, -, hs, -⟩ := fields_of_modeClass h
  rw [run_eq, run_eq, ← hs]
  exact runTurns_modeClassOnly _ _ _ h

theorem beginTurns_modeClassOnly {line : State → State} (hl : ModeClassOnly line) (ts : List Turn) :
    ModeClassOnly (beginTurns line ts) := by
  induction ts with
  | nil => exact setSched_modeClassOnly []
  | cons t ts ih =>
    intro s s' h
    have ht : (s.turn t).modeClass = (s'.turn t).modeClass := turn_modeClassOnly t s s' h
    have hlt := hl _ _ ht
    obtain ⟨-, hpt, -⟩ := fields_of_modeClass ht
    obtain ⟨-, hpl, -⟩ := fields_of_modeClass hlt
    cases hr : (s.turn t).pos.isReady with
    | false =>
      simp only [beginTurns, hr, hpt ▸ hr, Bool.false_eq_true, if_false]
      exact setSched_modeClassOnly ([] :: ts) _ _ ht
    | true =>
      cases hrl : (line (s.turn t)).pos.isReady with
      | false =>
        simp only [beginTurns, hr, hpt ▸ hr, hrl, hpl ▸ hrl, Bool.false_eq_true, if_true, if_false]
        exact runTurns_modeClassOnly _ _ _ hlt
      | true =>
        simp only [beginTurns, hr, hpt ▸ hr, hrl, hpl ▸ hrl, if_true]
        exact ih _ _ hlt

theorem poweredLine_modeClassOnly {line : State → State} (hl : ModeClassOnly line) :
    ModeClassOnly (poweredLine line) := by
  intro s s' h
  have hon : ModeClassOnly State.powerOn := .of_commutes fun _ _ => rfl
  obtain ⟨-, -, -, -, hp⟩ := fields_of_modeClass h
  unfold poweredLine
  rw [← hp]
  split
  · exact hl _ _ h
  · exact hon _ _ h

theorem dispatched_modeClassOnly (i : Instr) (c : Command) : ModeClassOnly (·.dispatched i c) :=
  .of_commutes fun _ _ => rfl

theorem execute_modeClassOnly (i : Instr) (c : Command) {line : State → State} (hl : ModeClassOnly line) :
    ModeClassOnly (execute i c line) := by
  intro s s' h
  obtain ⟨-, -, hs, -⟩ := fields_of_modeClass h
  unfold execute
  rw [← hs]
  exact beginTurns_modeClassOnly (poweredLine_modeClassOnly hl) _ _ _ (dispatched_modeClassOnly i c _ _ h)

/-! ## The fetch -/

/-- Two fetches that read the same and leave states of one class. -/
inductive Fetched.SameClass : Fetched → Fetched → Prop
  | more {s s' : State} (h : s.modeClass = s'.modeClass) : SameClass (.more s) (.more s')
  | instr (i : Instr) {s s' : State} (h : s.modeClass = s'.modeClass) : SameClass (.instr i s) (.instr i s')
  | abandon {s s' : State} (h : s.modeClass = s'.modeClass) : SameClass (.abandon s) (.abandon s')

theorem fetchAborted_modeClassOnly : ModeClassOnly fetchAborted := .of_commutes fun s m => by
  unfold fetchAborted
  rw [withMode_pos]
  split <;> simp

theorem fetchByte_sameClass (b : Byte) (u : State) {m n : BitVec 3} (h : m.toNat < 4 ↔ n.toNat < 4) :
    (fetchByte b (u.withMode m)).SameClass (fetchByte b (u.withMode n)) := by
  by_cases hi : u.pos = .item ∨ u.pos = .drain
  · simp only [fetchByte, withMode_pos, withMode_cfg, withMode_xfer, setXfer_withMode, hi, if_true]
    cases itemByte u.cfg u.xfer.codec b with
    | some i => exact .instr i (withMode_modeClass h u)
    | none => exact .more (withMode_modeClass h _)
  · simp only [fetchByte, withMode_pos, withMode_cfg, withMode_parser, setParser_withMode, hi, if_false]
    cases parseByte u.cfg u.parser b with
    | more st => exact .more (withMode_modeClass h _)
    | done i => exact .instr i (withMode_modeClass h u)

theorem fetchPoll_sameClass {s s' : State} (h : s.modeClass = s'.modeClass) :
    (fetchPoll s).SameClass (fetchPoll s') := by
  obtain ⟨u, m, n, hmn, rfl, rfl⟩ := exists_withMode h
  simp only [fetchPoll, hostGet_withMode]
  cases hostGet u with
  | abort => exact .abandon (fetchAborted_modeClassOnly _ _ h)
  | empty t => exact .more (withMode_modeClass hmn t)
  | byte b t => exact fetchByte_sameClass b t hmn

theorem fetchTurns_sameClass (ts : List Turn) {s s' : State} (h : s.modeClass = s'.modeClass) :
    (fetchTurns ts s).SameClass (fetchTurns ts s') := by
  induction ts generalizing s s' with
  | nil => exact .more (setSched_modeClassOnly [] _ _ h)
  | cons t ts ih =>
    have hp : (fetchPoll (s.turn t)).SameClass (fetchPoll (s'.turn t)) :=
      fetchPoll_sameClass (turn_modeClassOnly t s s' h)
    unfold fetchTurns
    generalize fetchPoll (s.turn t) = r, fetchPoll (s'.turn t) = r' at hp ⊢
    cases hp with
    | more hu => exact ih hu
    | instr i hu => exact .instr i (setSched_modeClassOnly ts _ _ hu)
    | abandon hu => exact .abandon (setSched_modeClassOnly ts _ _ hu)

/-! ## The instructions -/

/-- Two outcomes with next states of one class. -/
def NextOfOneClass (o o' : Host.Outcome State Fault Refusal) : Prop :=
  ∃ t t', o = .next t ∧ o' = .next t' ∧ t.modeClass = t'.modeClass

theorem ModeClassOnly.next {f : State → State} (hf : ModeClassOnly f) {s s' : State} (h : s.modeClass = s'.modeClass) :
    NextOfOneClass (.next (f s)) (.next (f s')) := ⟨_, _, rfl, rfl, hf _ _ h⟩

theorem sendBlockB2_withMode (b : Byte) (s : State) (m : BitVec 3) :
    sendBlockB2 b (s.withMode m) = (sendBlockB2 b s).withMode m := by
  unfold sendBlockB2
  rw [withMode_ite]
  rfl

theorem sendBlockB4_withMode (s : State) (m : BitVec 3) : sendBlockB4 (s.withMode m) = (sendBlockB4 s).withMode m := by
  unfold sendBlockB4
  rw [withMode_ite]
  rfl

theorem onToken_withMode (d : DecMode) (t : Token) (s : State) (m : BitVec 3) :
    onToken d t (s.withMode m) = (onToken d t s).withMode m := by
  cases t <;> cases d <;> simp [onToken, sendBlockB2_withMode, sendBlockB4_withMode]

theorem decodeByte_withMode (st : CodecState) (b : Byte) (s : State) (m : BitVec 3) :
    decodeByte st b (s.withMode m) = (decodeByte st b s).withMode m := by
  simp [decodeByte, onToken_withMode]

/-- An operation that does not see `write_mode`, and the run after it. -/
theorem running_modeClassOnly {f : State → State} (hf : ∀ s m, f (s.withMode m) = (f s).withMode m) :
    ModeClassOnly fun s => (f s).run :=
  fun s s' h => run_modeClassOnly _ _ (ModeClassOnly.of_commutes hf s s' h)

/-- A block item, its byte a marker of the configuration or its own. -/
theorem item_modeClassOnly (st : CodecState) (b : Cfg → Byte) : ModeClassOnly fun s => (decodeByte st (b s.cfg) s).run :=
  running_modeClassOnly fun s m => decodeByte_withMode st (b s.cfg) s m

theorem rejectLine_modeClassOnly : ModeClassOnly rejectLine := running_modeClassOnly fun _ _ => rfl

/-- The reply to an oversized line (R256, R258). -/
theorem oversized_modeClassOnly : ModeClassOnly fun s => (s.goto (.put [s.cfg.nak] .resync)).run :=
  running_modeClassOnly (f := fun s => s.goto (.put [s.cfg.nak] .resync)) fun _ _ => rfl

/-- A leader mismatch, whose byte is tested against the terminator of the configuration (R254). -/
theorem resync_modeClassOnly (b : Byte) :
    ModeClassOnly fun s => (if b = s.cfg.term then s.toCleanup else s.goto .resync).run :=
  running_modeClassOnly fun s m => (withMode_ite (b = s.cfg.term) s.toCleanup (s.goto .resync) m).symm

/-- An instruction leads from states of one class to states of one class. -/
theorem exec_modeClassOnly (i : Instr) {s s' : State} (h : s.modeClass = s'.modeClass) :
    NextOfOneClass (exec i s) (exec i s') := by
  have command (c : Command) {line : State → State} (hl : ∀ s m, line (s.withMode m) = (line s).withMode m) :
      NextOfOneClass (.next (execute i c line s)) (.next (execute i c line s')) :=
    (execute_modeClassOnly i c (.of_commutes hl)).next h
  have reject := rejectLine_modeClassOnly.next h
  obtain ⟨hcfg, -, hsched, -⟩ := fields_of_modeClass h
  cases i with
  | pwron | status | setRen _ | setSrq _ => exact command _ fun _ _ => rfl
  | busCmdRelease b | busCmdHold b | blk => exact command _ fun s m => by rw [needTalker_withMode]; rfl
  | recvBlk | recvByte => exact command _ fun s m => by rw [needListener_withMode]; rfl
  | busRst => exact command _ fun _ _ => rfl
  | pwrOff =>
    have hoff : ModeClassOnly fun s => s.powerOff.toCleanup := .of_overwrites fun _ _ => rfl
    simp only [exec, execPwrOff, ← hsched]
    exact (beginTurns_modeClassOnly hoff _).next (dispatched_modeClassOnly _ _ _ _ h)
  | setWriteMode d =>
    simp only [exec, execSetWriteMode]
    cases writeModeOperand d with
    | some v => exact (execute_modeClassOnly _ _ (.of_overwrites fun _ _ => rfl)).next h
    | none => exact reject
  | setByteTimeout d =>
    simp only [exec, execSetByteTimeout, ← hcfg]
    cases byteTimeoutOperand s.cfg d with
    | some v => exact command _ fun _ _ => rfl
    | none => exact reject
  | setTotalTimeout d =>
    simp only [exec, execSetTotalTimeout]
    cases wideTimeoutOperand d with
    | some v => exact command _ fun _ _ => rfl
    | none => exact reject
  | setFirstTimeout d =>
    simp only [exec, execSetFirstTimeout]
    cases wideTimeoutOperand d with
    | some v => exact command _ fun _ _ => rfl
    | none => exact reject
  | ident n => exact command _ fun s m => replyWith_withMode s m _
  | escStart => exact (item_modeClassOnly .sawEscape (·.blockStart)).next h
  | escEsc => exact (item_modeClassOnly .sawEscape (·.escape)).next h
  | escEnd => exact (item_modeClassOnly .sawEscape (·.blockEnd)).next h
  | escChk => exact (item_modeClassOnly .sawEscape (·.checkpoint)).next h
  | escOther x => exact (item_modeClassOnly .sawEscape fun _ => x).next h
  | literal x => exact (item_modeClassOnly .normal fun _ => x).next h
  | syntaxError bad =>
    cases bad with
    | line _ => exact reject
    | oversized _ _ => exact oversized_modeClassOnly.next h
  | resync bad => exact (resync_modeClassOnly bad.byte).next h

/-- Settles O35: by the kind of position; the fetch, the instruction it reads and the run each lead from states of one
class to states of one class. -/
theorem writeModeClassOnly : Obligations.WriteModeClassOnly := by
  unfold Obligations.WriteModeClassOnly
  intro s s' h
  show NextOfOneClass (step s) (step s')
  obtain ⟨-, hp, hs, -⟩ := fields_of_modeClass h
  unfold step
  rw [← hp, ← hs]
  split
  · exact exec_modeClassOnly _ h
  · split
    · have hf := fetchTurns_sameClass s.sched h
      generalize fetchTurns s.sched s = r, fetchTurns s.sched s' = r' at hf ⊢
      cases hf with
      | more hu => exact ⟨_, _, rfl, rfl, hu⟩
      | instr i hu => exact exec_modeClassOnly i hu
      | abandon hu => exact run_modeClassOnly.next hu
    · exact run_modeClassOnly.next h

end Sys2Proof.Machine
end


section
/-! PROOF. The two host channels (R72 to R76): what a poll, a foreground step, the fetch and the beginning of an
instruction do to them. The foreground changes them in one way at a time, by sending a byte or by taking one, and in
neither way while a suspend is pending (`HostMove`). -/

namespace Sys2Proof.Machine

/-! ## The two primitives, one poll each -/

/-- The Suspended flag is tested before the queue (R73). -/
theorem hostGet_suspended {s : State} (h : s.abt.suspended = true) : hostGet s = .abort := by
  simp [hostGet, h]

/-- The head of the queue is taken, with the resume if one is pending (R73, R342). -/
theorem hostGet_byte {s : State} {b : Byte} {rest : List Byte} (hs : s.abt.suspended = false) (hr : s.rx = b :: rest) :
    hostGet s = .byte b (State.resumed { s with rx := rest }) := by
  simp [hostGet, hs, hr]

/-- An empty queue lets the idle leader poll for a service request (R73). -/
theorem hostGet_empty {s : State} (hs : s.abt.suspended = false) (hr : s.rx = []) :
    hostGet s = .empty (if s.disp.phase = .awaitLeader ∧ s.disp.leaderIdx = 0 then srqPoll s else s) := by
  simp [hostGet, hs, hr]

/-- Settles O13: `HostGet` by the three cases of its poll; `HostPut` as it is defined. -/
theorem hostChannelPolls : Obligations.HostChannelPolls := by
  unfold Obligations.HostChannelPolls
  exact ⟨fun _ => hostGet_suspended, fun _ _ _ => hostGet_byte, fun _ => hostGet_empty, fun _ _ => rfl⟩

/-! ## What leaves both channels alone -/

/-- What the two host channels hold. -/
def State.host (s : State) : List Byte × List Byte := (s.rx, s.tx)

/-- The same bytes in both channels, field by field. -/
theorem State.host_eq_iff {s t : State} : t.host = s.host ↔ t.rx = s.rx ∧ t.tx = s.tx :=
  Iff.of_eq (Prod.mk.injEq ..)

@[simp] theorem State.goto_host (s : State) (p : Pos) : (s.goto p).host = s.host := rfl
@[simp] theorem State.drive_host (s : State) (f : BusOut → BusOut) : (s.drive f).host = s.host := rfl
@[simp] theorem State.setXfer_host (s : State) (f : Transfer → Transfer) : (s.setXfer f).host = s.host := rfl
@[simp] theorem State.stamp_host (s : State) (r : Option Reason) : (s.stamp r).host = s.host := rfl
@[simp] theorem State.byteDone_host (s : State) : s.byteDone.host = s.host := rfl
@[simp] theorem State.toCleanup_host (s : State) : s.toCleanup.host = s.host := rfl
@[simp] theorem State.cycleStart_host (s : State) : s.cycleStart.host = s.host := rfl
@[simp] theorem State.suspendCleanup_host (s : State) : s.suspendCleanup.host = s.host := rfl

@[simp] theorem State.replyWith_host (s : State) (bs : List Byte) : (s.replyWith bs).host = s.host := by
  cases bs <;> rfl

@[simp] theorem State.needTalker_host (s : State) : s.needTalker.host = s.host := by
  unfold State.needTalker
  split <;> rfl

@[simp] theorem State.needListener_host (s : State) : s.needListener.host = s.host := by
  unfold State.needListener
  split <;> rfl

theorem State.setParser_host (s : State) (st : ParseState) : (s.setParser st).host = s.host := by
  cases st <;> rfl

theorem State.resumed_host (s : State) : s.resumed.host = s.host := by
  unfold State.resumed
  split <;> rfl

@[simp] theorem finish_host (r : Result) (s : State) : (finish r s).host = s.host := by
  rcases finish_cases r s with ⟨-, h⟩ | ⟨b, -, -, h⟩ | ⟨b, -, -, h⟩ <;> rw [h] <;> rfl

@[simp] theorem receiveFin_host (w : Result) (s : State) : (receiveFin w s).host = s.host := by
  unfold receiveFin
  split <;> simp [receiveReturned]

theorem putDone_host (k : PutReturn) (sent : Bool) (s : State) : (putDone k sent s).host = s.host := by
  cases k <;> cases sent <;> simp [putDone, receiveReturned]

theorem srcReturned_host (k : SrcReturn) (s : State) : (srcReturned k s).host = s.host := by
  cases k <;> simp [srcReturned]

theorem srcFailed_host (w : Result) (k : SrcReturn) (s : State) : (srcFailed w k s).host = s.host := by
  cases k <;> simp [srcFailed]

theorem srcWaited_host (next : SrcStep) (b : Byte) (eoi : Bool) (k : SrcReturn) (w : Result) (s : State) :
    (srcWaited next b eoi k w s).host = s.host := by
  cases w <;> rfl

/-- A bus wait leaves the channels alone where what follows it does (R171). -/
theorem polling_wait_host (cond : Bool) (r : Reason) (c : Bool) (s : State) (k : Result → State → State)
    (hk : ∀ w t, (k w t).host = t.host) : (polling (wait cond r c s) s k).host = s.host := by
  rcases wait_cases cond r c s with ⟨-, h⟩ | ⟨-, -, h⟩ | ⟨-, -, -, h⟩ | ⟨-, -, -, -, -, h⟩ | ⟨-, -, -, -, h⟩ <;>
    simp [h, hk]

theorem srcStep_host (st : SrcStep) (b : Byte) (eoi : Bool) (k : SrcReturn) (s : State) :
    (srcStep st b eoi k s).host = s.host := by
  cases st with
  | s1 | s5 | s7 => rfl
  | s2 | s3 | s6 => exact polling_wait_host _ _ _ s _ fun w t => srcWaited_host _ b eoi k w t
  | s4 => cases eoi <;> rfl
  | s8 => exact srcReturned_host k s.byteDone
  | sf w => exact srcFailed_host w k _

theorem cleanupK2_host (s : State) : (cleanupK2 s).host = s.host := by
  unfold cleanupK2
  split <;> rfl

theorem cleanupK3_host (s : State) : (cleanupK3 s).host = s.host := by
  unfold cleanupK3
  split <;> rfl

/-- Only a sequence of `HostPut`s and a resync touch the channels. -/
theorem fg_host (s : State) (hput : ∀ bs k, s.pos ≠ .put bs k) (hresync : s.pos ≠ .resync) :
    (fg s).host = s.host := by
  unfold fg
  cases hp : s.pos with
  | put bs k => exact absurd hp (hput bs k)
  | resync => exact absurd hp hresync
  | src st b eoi k => exact srcStep_host st b eoi k s
  | c3 r release => simp only [sendCommandC3, finish_host]; split <;> rfl
  | l2 | y2 => exact polling_wait_host _ _ _ s _ fun w t => by split <;> rfl
  | l7 eoi | y7 => exact polling_wait_host _ _ _ s _ fun _ _ => rfl
  | l2f w => exact receiveFin_host w _
  | l8 w eoi => simp only [receiveL8]; split <;> simp
  | l9 eoi => simp only [receiveL9]; split <;> simp
  | y2f w => simp only [receiveByteY2Failed]; split <;> simp
  | y8 w => simp only [receiveByteY8]; split <;> simp
  | y9 => exact finish_host .ok _
  | busReset st b => cases st <;> rfl
  | k2 => exact cleanupK2_host s
  | k3 => exact cleanupK3_host s
  | _ => rfl

/-! ## One move of the foreground -/

/-- What one poll can do to the host channels: nothing; send a byte (R75, R335); take the head of the queue (R73). The
two that move a byte happen only while no suspend is pending (R76). -/
inductive HostMove (s t : State) : Prop
  | still (h : t.host = s.host)
  | sent (b : Byte) (hs : s.abt.suspended = false) (hrx : t.rx = s.rx) (htx : t.tx = s.tx ++ [b])
  | taken (b : Byte) (hs : s.abt.suspended = false) (hrx : s.rx = b :: t.rx) (htx : t.tx = s.tx)

/-- What follows a poll without touching the channels is part of the same move. -/
theorem HostMove.trans_host {s t u : State} (h : HostMove s t) (hu : u.host = t.host) : HostMove s u := by
  obtain ⟨hrx, htx⟩ := State.host_eq_iff.mp hu
  cases h with
  | still h => exact .still (hu.trans h)
  | sent b hs hr ht => exact .sent b hs (hrx.trans hr) (htx.trans ht)
  | taken b hs hr ht => exact .taken b hs (hrx ▸ hr) (htx.trans ht)

/-- Under a pending suspend nothing moves. -/
theorem HostMove.host_of_suspended {s t : State} (h : HostMove s t) (hs : s.abt.suspended = true) :
    t.host = s.host := by
  cases h with
  | still h => exact h
  | sent _ h | taken _ h => rw [h] at hs; cases hs

theorem srqPoll_hostMove {s : State} (hs : s.abt.suspended = false) : HostMove s (srqPoll s) := by
  rcases srqPoll_cases s with h | h | h <;> rw [h]
  · exact .still rfl
  · exact .still rfl
  · exact .sent s.cfg.srqNotify hs rfl rfl

/-- A property of the state a poll of `HostGet` leaves; an abandoned poll leaves the state it found. -/
def GetPoll.All (P : State → Prop) (s : State) : GetPoll → Prop
  | .abort => P s
  | .empty t => P t
  | .byte _ t => P t

theorem hostGet_hostMove (s : State) : (hostGet s).All (HostMove s) s := by
  rcases hostGet_cases s with ⟨-, h⟩ | ⟨hs, -, h⟩ | ⟨b, rest, hs, hr, h⟩ <;> rw [h]
  · exact .still rfl
  · show HostMove s (ite _ _ _)
    split
    · exact srqPoll_hostMove hs
    · exact .still rfl
  · exact (HostMove.taken (t := { s with rx := rest }) b hs hr rfl).trans_host (State.resumed_host _)

theorem resyncStep_hostMove (s : State) : HostMove s (resyncStep s) := by
  have hm := hostGet_hostMove s
  unfold resyncStep
  cases hg : hostGet s with
  | abort => exact .still rfl
  | empty t => rw [hg] at hm; exact hm
  | byte b t =>
    rw [hg] at hm
    refine hm.trans_host ?_
    show (ite _ _ _ : State).host = _
    split <;> rfl

theorem putStep_hostMove (bs : List Byte) (k : PutReturn) (s : State) : HostMove s (putStep bs k s) := by
  cases bs with
  | nil => exact .still (putDone_host k true s)
  | cons b rest =>
    unfold putStep
    rcases hostPut_cases b s with ⟨-, h⟩ | ⟨-, -, h⟩ | ⟨hs, -, h⟩ <;> simp only [h]
    · exact .still (putDone_host k false s)
    · exact .still rfl
    · refine (HostMove.sent (t := s.push b) b hs rfl rfl).trans_host ?_
      split
      · exact putDone_host k true _
      · rfl

theorem fg_hostMove (s : State) : HostMove s (fg s) := by
  by_cases hput : ∃ bs k, s.pos = .put bs k
  · obtain ⟨bs, k, hp⟩ := hput
    simpa only [fg, hp] using putStep_hostMove bs k s
  · by_cases hresync : s.pos = .resync
    · simpa only [fg, hresync] using resyncStep_hostMove s
    · exact .still (fg_host s (fun bs k hp => hput ⟨bs, k, hp⟩) hresync)

/-! ## The fetch -/

theorem fetchAborted_host (s : State) : (fetchAborted s).host = s.host := by
  unfold fetchAborted
  split <;> simp

theorem fetchByte_host (b : Byte) (s : State) : (fetchByte b s).All fun t => t.host = s.host := by
  unfold fetchByte
  split
  · cases itemByte s.cfg s.xfer.codec b <;> rfl
  · cases parseByte s.cfg s.parser b with
    | more st => exact State.setParser_host s st
    | done i => rfl

theorem Fetched.All.imp {P Q : State → Prop} {f : Fetched} (h : f.All P) (hPQ : ∀ s, P s → Q s) : f.All Q := by
  cases f <;> exact hPQ _ h

theorem fetchPoll_hostMove (s : State) : (fetchPoll s).All (HostMove s) := by
  have hm := hostGet_hostMove s
  unfold fetchPoll
  cases hg : hostGet s with
  | abort => exact .still (fetchAborted_host s)
  | empty t => rw [hg] at hm; exact hm
  | byte b t =>
    rw [hg] at hm
    exact (fetchByte_host b t).imp fun u hu => hm.trans_host hu

/-- A pending suspend abandons the poll of a fetch (R269, R190, R266). -/
theorem fetchPoll_suspended {s : State} (h : s.abt.suspended = true) : fetchPoll s = .abandon (fetchAborted s) := by
  simp only [fetchPoll, hostGet_suspended h]

/-- Settles O30: a foreground step moves nothing under a suspend, and the fetch is abandoned. -/
theorem nothingPassesWhileSuspended : Obligations.NothingPassesWhileSuspended := by
  unfold Obligations.NothingPassesWhileSuspended
  intro s hs
  obtain ⟨hrx, htx⟩ := State.host_eq_iff.mp ((fg_hostMove s).host_of_suspended hs)
  obtain ⟨hrx', htx'⟩ := State.host_eq_iff.mp (fetchAborted_host s)
  exact ⟨⟨htx, hrx⟩, _, fetchPoll_suspended hs, htx', hrx'⟩

end Sys2Proof.Machine
end

section
/-! PROOF. What a whole step does to the host channels (R72, R75). A property of what the channels hold that the moves
of the foreground keep, and that the events which fall keep, holds after the step: along the turns of a run, of the
beginning of a command, and of a fetch. -/

namespace Sys2Proof.Machine

/-! ## A property of the channels along the turns -/

/-- Every event in these turns is one of `E`. -/
def EventsIn (E : Event → Prop) (ts : List Turn) : Prop := ∀ t ∈ ts, ∀ e ∈ t, E e

theorem EventsIn.tail {E : Event → Prop} {t : Turn} {ts : List Turn} (h : EventsIn E (t :: ts)) : EventsIn E ts :=
  fun u hu => h u (List.mem_cons_of_mem t hu)

theorem eventsIn_quietTurns (E : Event → Prop) (n : Nat) : EventsIn E (quietTurns n) := by
  intro t ht e he
  rw [List.eq_of_mem_replicate ht] at he
  cases he

/-- The moves of the foreground and the events of `E` keep the property of the channels. -/
structure HostKept (E : Event → Prop) (P : List Byte × List Byte → Prop) : Prop where
  act : ∀ (e : Event) (s : State), E e → P s.host → P (e.act s).host
  sent : ∀ rx tx b, P (rx, tx) → P (rx, tx ++ [b])
  taken : ∀ b rx tx, P (b :: rx, tx) → P (rx, tx)

variable {E : Event → Prop} {P : List Byte × List Byte → Prop}

theorem HostKept.move (K : HostKept E P) {s t : State} (m : HostMove s t) (h : P s.host) : P t.host := by
  cases m with
  | still hst => exact hst ▸ h
  | sent b _ hrx htx => simpa only [State.host, hrx, htx] using K.sent _ _ b h
  | taken b _ hrx htx =>
    rw [State.host, hrx] at h
    simpa only [State.host, htx] using K.taken b _ _ h

theorem HostKept.turn (K : HostKept E P) {t : Turn} (ht : ∀ e ∈ t, E e) {s : State} (h : P s.host) :
    P (s.turn t).host := by
  induction t generalizing s with
  | nil => exact h
  | cons e t ih =>
    exact ih (fun e' he' => ht e' (List.mem_cons_of_mem e he')) (K.act e s (ht e List.mem_cons_self) h)

theorem HostKept.runTurns (K : HostKept E P) {ts : List Turn} (hts : EventsIn E ts) {s : State} (h : P s.host) :
    P (runTurns ts s).host := by
  induction ts generalizing s with
  | nil => exact h
  | cons t ts ih =>
    have ht : P (s.turn t).host := K.turn (hts t List.mem_cons_self) h
    unfold Machine.runTurns
    split
    · exact h
    · split
      · exact ht
      · exact ih hts.tail (K.move (fg_hostMove _) ht)

theorem HostKept.beginTurns (K : HostKept E P) {line : State → State} (hline : ∀ s, (line s).host = s.host)
    {ts : List Turn} (hts : EventsIn E ts) {s : State} (h : P s.host) : P (beginTurns line ts s).host := by
  induction ts generalizing s with
  | nil => exact h
  | cons t ts ih =>
    have ht : P (s.turn t).host := K.turn (hts t List.mem_cons_self) h
    have hl : P (line (s.turn t)).host := (hline _).symm ▸ ht
    simp only [Machine.beginTurns]
    split
    · split
      · exact ih hts.tail hl
      · exact K.runTurns hts.tail hl
    · exact ht

/-- A fetch keeps the property and leaves a schedule of the same events. -/
theorem HostKept.fetchTurns (K : HostKept E P) {ts : List Turn} (hts : EventsIn E ts) {s : State} (h : P s.host) :
    (fetchTurns ts s).All fun t => P t.host ∧ EventsIn E t.sched := by
  induction ts generalizing s with
  | nil => exact ⟨h, hts⟩
  | cons t ts ih =>
    have ht : P (s.turn t).host := K.turn (hts t List.mem_cons_self) h
    have hp : (fetchPoll (s.turn t)).All fun u => P u.host :=
      (fetchPoll_hostMove _).imp fun u hu => K.move hu ht
    unfold Machine.fetchTurns
    cases he : fetchPoll (s.turn t) with
    | more u => rw [he] at hp; exact ih hts.tail hp
    | instr i u => rw [he] at hp; exact ⟨hp, hts.tail⟩
    | abandon u => rw [he] at hp; exact ⟨hp, hts.tail⟩

theorem HostKept.run (K : HostKept E P) {s : State} (hs : EventsIn E s.sched) (h : P s.host) : P s.run.host :=
  K.runTurns hs h

/-! ## The beginning of an instruction -/

/-- An instruction begins by a run, or by the turns in which `Execute` begins; what stands before them, and the first
line, leave the channels alone. -/
inductive Begins (s : State) : Host.Outcome State Fault Refusal → Prop
  | run (u : State) (hu : u.host = s.host) (hsched : u.sched = s.sched) : Begins s (.next u.run)
  | execute (line : State → State) (u : State) (hline : ∀ v, (line v).host = v.host) (hu : u.host = s.host) :
      Begins s (.next (beginTurns line s.sched u))

theorem poweredLine_host {line : State → State} (hline : ∀ s, (line s).host = s.host) (s : State) :
    (poweredLine line s).host = s.host := by
  unfold poweredLine
  split
  · exact hline s
  · rfl

theorem begins_execute (i : Instr) (c : Command) {line : State → State} (hline : ∀ s, (line s).host = s.host)
    (s : State) : Begins s (.next (execute i c line s)) :=
  .execute _ _ (poweredLine_host hline) rfl

theorem begins_rejectLine (s : State) : Begins s (.next (rejectLine s)) := .run _ rfl rfl

@[simp] theorem finish_sched (r : Result) (s : State) : (finish r s).sched = s.sched := by
  rcases finish_cases r s with ⟨-, h⟩ | ⟨b, -, -, h⟩ | ⟨b, -, -, h⟩ <;> rw [h] <;> rfl

theorem sendBlockB2_host_sched (b : Byte) (s : State) :
    (sendBlockB2 b s).host = s.host ∧ (sendBlockB2 b s).sched = s.sched := by
  unfold sendBlockB2
  split <;> exact ⟨rfl, rfl⟩

theorem sendBlockB4_host_sched (s : State) :
    (sendBlockB4 s).host = s.host ∧ (sendBlockB4 s).sched = s.sched := by
  unfold sendBlockB4
  split
  · exact ⟨rfl, rfl⟩
  · exact ⟨finish_host .ok s, finish_sched .ok s⟩

theorem onToken_host_sched (m : DecMode) (t : Token) (s : State) :
    (onToken m t s).host = s.host ∧ (onToken m t s).sched = s.sched := by
  cases t <;> cases m <;> simp [onToken, sendBlockB2_host_sched, sendBlockB4_host_sched]

/-- What an item does before its run (R143). -/
theorem begins_item (st : CodecState) (b : Byte) (s : State) : Begins s (.next (decodeByte st b s).run) :=
  have ⟨hhost, hsched⟩ := onToken_host_sched _ _ _
  .run _ hhost hsched

theorem exec_begins (i : Instr) (s : State) : Begins s (exec i s) := by
  have command (c : Command) {line : State → State} (hline : ∀ v, (line v).host = v.host) :
      Begins s (.next (execute i c line s)) := begins_execute i c hline s
  cases i with
  | pwron | status | setRen _ | setSrq _ | busRst => exact command _ fun _ => rfl
  | busCmdRelease b | busCmdHold b | blk => exact command _ State.needTalker_host
  | recvBlk | recvByte => exact command _ State.needListener_host
  | pwrOff => exact .execute _ _ (fun _ => rfl) rfl
  | setWriteMode d =>
    simp only [exec, execSetWriteMode]
    cases writeModeOperand d with
    | some v => exact command _ fun _ => rfl
    | none => exact begins_rejectLine s
  | setByteTimeout d =>
    simp only [exec, execSetByteTimeout]
    cases byteTimeoutOperand s.cfg d with
    | some v => exact command _ fun _ => rfl
    | none => exact begins_rejectLine s
  | setTotalTimeout d =>
    simp only [exec, execSetTotalTimeout]
    cases wideTimeoutOperand d with
    | some v => exact command _ fun _ => rfl
    | none => exact begins_rejectLine s
  | setFirstTimeout d =>
    simp only [exec, execSetFirstTimeout]
    cases wideTimeoutOperand d with
    | some v => exact command _ fun _ => rfl
    | none => exact begins_rejectLine s
  | ident n => exact command _ fun v => State.replyWith_host v _
  | escStart | escEsc | escEnd | escChk | escOther x => exact begins_item .sawEscape _ s
  | literal x => exact begins_item .normal x s
  | syntaxError bad =>
    cases bad with
    | line _ => exact begins_rejectLine s
    | oversized _ _ => exact .run _ rfl rfl
  | resync bad =>
    simp only [exec, execResync]
    split
    · exact .run _ rfl rfl
    · exact .run _ rfl rfl

/-! ## One step -/

/-- A property of the channels holds of the next state. -/
def KeptNext (P : List Byte × List Byte → Prop) (o : Host.Outcome State Fault Refusal) : Prop :=
  ∀ t, o = .next t → P t.host

theorem HostKept.exec (K : HostKept E P) (i : Instr) {s : State} (hs : EventsIn E s.sched) (h : P s.host) :
    KeptNext P (exec i s) := by
  intro t ht
  have hb := exec_begins i s
  rw [ht] at hb
  cases hb with
  | run u hu hsched => exact K.run (hsched ▸ hs) (hu ▸ h)
  | execute line u hline hu => exact K.beginTurns hline hs (hu ▸ h)

theorem HostKept.step (K : HostKept E P) {s t : State} (hs : EventsIn E s.sched) (h : P s.host)
    (ht : step s = .next t) : P t.host := by
  have hf := K.fetchTurns hs h
  rcases step_cases s with ⟨i, -, he⟩ | ⟨-, i, u, hu, he⟩ | ⟨-, u, hu, he⟩ | ⟨-, u, hu, he⟩ | ⟨-, he⟩
  · exact K.exec i hs h t (he ▸ ht)
  · rw [hu] at hf
    exact K.exec i hf.2 hf.1 t (he ▸ ht)
  · rw [hu] at hf
    cases he.symm.trans ht
    exact hf.1
  · rw [hu] at hf
    cases he.symm.trans ht
    exact K.run hf.2 hf.1
  · cases he.symm.trans ht
    exact K.run hs h

end Sys2Proof.Machine
end

section
/-! PROOF. The statement on what has been sent and what is left to take (R72, R75). -/

namespace Sys2Proof.Machine

/-- Whatever events fall, what was sent stays at the front of what is sent (R75). -/
theorem sentPrefix_kept (sent : List Byte) : HostKept (fun _ => True) fun h => sent <+: h.2 where
  act e s _ h := by simpa only [State.host, act_tx] using h
  sent _ _ b h := h.trans (List.prefix_append _ [b])
  taken _ _ _ h := h

/-- Where no event falls, the RX queue only loses bytes at its head (R72). -/
theorem rxSuffix_kept (rx : List Byte) : HostKept (fun _ => False) fun h => h.1 <:+ rx where
  act _ _ he _ := he.elim
  sent _ _ _ h := h
  taken b _ _ h := (List.suffix_cons b _).trans h

/-- Settles O29: by `HostKept.step` for the two properties, the second in turns without events. -/
theorem sentBytesStay : Obligations.SentBytesStay := by
  unfold Obligations.SentBytesStay
  constructor
  · intro s t ht
    obtain ⟨new, h⟩ := (sentPrefix_kept s.tx).step (fun _ _ _ _ => trivial) (List.prefix_refl _) ht
    exact ⟨new, h.symm⟩
  · intro s t n hs ht
    obtain ⟨taken, h⟩ := (rxSuffix_kept s.rx).step (hs ▸ eventsIn_quietTurns _ n) (List.suffix_refl _) ht
    exact ⟨taken, h.symm⟩

end Sys2Proof.Machine
end

section
/-! PROOF. Where a foreground step can stay (R16, R73, R75, R171): at the poll of a blocked host channel and at a bus
wait that nothing ends. Every other step moves the foreground. -/

namespace Sys2Proof.Machine

/-! ## Where an operation goes when it ends -/

/-- Positions to which `Finish` leads (R264). -/
def Pos.endsOperation : Pos → Bool
  | .k1 | .busReset .z1 _ | .put _ .cleanup => true
  | _ => false

theorem finish_pos (r : Result) (s : State) : (finish r s).pos.endsOperation = true := by
  rcases finish_cases r s with ⟨-, h⟩ | ⟨b, -, -, h⟩ | ⟨b, -, -, h⟩ <;> rw [h] <;> rfl

theorem finish_pos_ne (r : Result) (s : State) {p : Pos} (hp : p.endsOperation = false) : (finish r s).pos ≠ p := by
  rintro rfl
  rw [finish_pos] at hp
  cases hp

/-- FIN goes on to the end of the block or ends the operation (R200). -/
theorem receiveFin_pos_ne (w : Result) (s : State) {p : Pos} (hp : p.endsOperation = false)
    (hput : ∀ bs, p ≠ .put bs (.blockEnd w)) : (receiveFin w s).pos ≠ p := by
  unfold receiveFin
  split
  · exact finish_pos_ne _ s hp
  · exact (hput _).symm

/-- A sequence of `HostPut`s is left when it is completed or cut. -/
theorem putDone_pos_ne (bs : List Byte) (k : PutReturn) (sent : Bool) (s : State) :
    (putDone k sent s).pos ≠ .put bs k := by
  cases k with
  | cleanup | resync | item => exact nofun
  | blockEnd w => exact finish_pos_ne _ s rfl
  | nullByte => exact finish_pos_ne .ok _ rfl
  | blockStart | captured _ =>
    cases sent with
    | true => exact nofun
    | false => exact receiveFin_pos_ne .suspended s rfl nofun
  | rawByte =>
    cases sent with
    | true => exact nofun
    | false => exact finish_pos_ne .suspended s rfl

/-! ## The polls that stay -/

/-- A sequence of `HostPut`s stays only at a full TX queue (R75). -/
theorem putStep_stays {bs : List Byte} {k : PutReturn} {s : State} (h : (putStep bs k s).pos = .put bs k) :
    s.abt.suspended = false ∧ s.inp.txFull = true ∧ ∃ b rest, bs = b :: rest := by
  cases bs with
  | nil => exact absurd h (putDone_pos_ne [] k true s)
  | cons b rest =>
    unfold putStep at h
    rcases hostPut_cases b s with ⟨-, hp⟩ | ⟨hs, hfull, -⟩ | ⟨-, -, hp⟩
    · simp only [hp] at h
      exact absurd h (putDone_pos_ne _ k false s)
    · exact ⟨hs, hfull, b, rest, rfl⟩
    · simp only [hp] at h
      split at h
      · exact absurd h (putDone_pos_ne _ k true _)
      · simp at h

theorem putStep_full {b : Byte} {s : State} (rest : List Byte) (k : PutReturn) (hs : s.abt.suspended = false)
    (hfull : s.inp.txFull = true) : putStep (b :: rest) k s = s := by
  simp [putStep, hostPut, hs, hfull]

theorem State.resumed_cfg (s : State) : s.resumed.cfg = s.cfg := by
  unfold State.resumed
  split <;> rfl

/-- A resync stays only while its terminator is not the next byte (R254). -/
theorem resyncStep_stays {s : State} (h : (resyncStep s).pos = .resync) :
    s.abt.suspended = false ∧ s.rx.head? ≠ some s.cfg.term := by
  unfold resyncStep at h
  rcases hostGet_cases s with ⟨-, hg⟩ | ⟨hs, hr, -⟩ | ⟨b, rest, hs, hr, hg⟩
  · simp [hg] at h
  · exact ⟨hs, by simp [hr]⟩
  · refine ⟨hs, fun hb => ?_⟩
    have hterm : b = s.cfg.term := by simpa [hr] using hb
    simp [hg, State.resumed_cfg, hterm] at h

/-- A bus wait whose outcomes all lead away stays only by polling again, which changes nothing (R171). -/
theorem polling_wait_stays {cond : Bool} {r : Reason} {c : Bool} {s : State} {k : Result → State → State}
    (h : (polling (wait cond r c s) s k).pos = s.pos) (hk : ∀ w t, (k w t).pos ≠ s.pos) :
    s.abt.suspended = false ∧ s.abt.timedOut = false ∧ polling (wait cond r c s) s k = s := by
  cases hw : wait cond r c s with
  | some p =>
    rw [hw] at h
    exact absurd h (hk p.1 p.2)
  | none =>
    obtain ⟨-, hs, ht, -⟩ := (wait_eq_none cond r c s).mp hw
    exact ⟨hs, ht, rfl⟩

/-- A wait of `SrcHandshake` is left for the next step or for SF (R180). -/
theorem srcWaited_pos_ne {st next : SrcStep} (hst : st ≠ next) (hsf : ∀ w, st ≠ .sf w) (b : Byte) (eoi : Bool)
    (k : SrcReturn) (w : Result) (s : State) : (srcWaited next b eoi k w s).pos ≠ .src st b eoi k := by
  cases w <;> simp [srcWaited, hst.symm, (hsf _).symm]

/-- A step that stays at a bus wait finds neither flag set and changes nothing. -/
theorem fg_wait_stays {s : State} (hw : s.pos.waits = true) (h : (fg s).pos = s.pos) :
    s.abt.suspended = false ∧ s.abt.timedOut = false ∧ fg s = s := by
  unfold fg at h ⊢
  cases hp : s.pos with
  | src st b eoi k =>
    simp only [hp] at h ⊢
    cases st with
    | s2 | s3 | s6 =>
      refine polling_wait_stays (h.trans hp.symm) fun w t => ?_
      rw [hp]
      exact srcWaited_pos_ne (by simp) (by simp) b eoi k w t
    | s1 | s4 | s5 | s7 | s8 | sf w => rw [hp] at hw; cases hw
  | l2 | y2 =>
    simp only [hp] at h ⊢
    refine polling_wait_stays (h.trans hp.symm) fun w t => ?_
    rw [hp]
    split <;> exact nofun
  | l7 eoi | y7 =>
    simp only [hp] at h ⊢
    exact polling_wait_stays (h.trans hp.symm) fun w t => by rw [hp]; exact nofun
  | _ => rw [hp] at hw; cases hw

/-! ## The steps that move -/

theorem srcStep_moves {st : SrcStep} {b : Byte} {eoi : Bool} {k : SrcReturn} (s : State)
    (hw : (Pos.src st b eoi k).waits = false) : (srcStep st b eoi k s).pos ≠ .src st b eoi k := by
  cases st with
  | s1 | s4 | s5 | s7 => exact nofun
  | s2 | s3 | s6 => cases hw
  | s8 =>
    cases k with
    | command _ | data _ => exact nofun
    | last => exact finish_pos_ne .ok _ rfl
  | sf w =>
    cases k with
    | command _ => exact nofun
    | data _ | last => exact finish_pos_ne w _ rfl

/-- Every step moves the foreground but the polls of the host channels and of the bus waits. -/
theorem fg_moves {s : State} (hf : s.pos.isFetch = false) (hput : ∀ bs k, s.pos ≠ .put bs k) (hr : s.pos ≠ .resync)
    (hw : s.pos.waits = false) : (fg s).pos ≠ s.pos := by
  unfold fg
  cases hp : s.pos with
  | leader | body | item | drain | ready i => rw [hp] at hf; cases hf
  | resync => exact absurd hp hr
  | put bs k => exact absurd hp (hput bs k)
  | l2 | l7 eoi | y2 | y7 => rw [hp] at hw; cases hw
  | src st b eoi k => exact srcStep_moves s (hp ▸ hw)
  | c3 r release => exact finish_pos_ne r _ rfl
  | l2f w => exact receiveFin_pos_ne w _ rfl nofun
  | l8 w eoi =>
    simp only [receiveL8]
    split
    · exact nofun
    · exact receiveFin_pos_ne w _ rfl nofun
  | l9 eoi =>
    simp only [receiveL9]
    split
    · exact receiveFin_pos_ne .ok _ rfl nofun
    · exact nofun
  | y2f w =>
    simp only [receiveByteY2Failed]
    split
    · exact finish_pos_ne .suspended _ rfl
    · exact nofun
  | y8 w =>
    simp only [receiveByteY8]
    split
    · exact nofun
    · exact finish_pos_ne w _ rfl
  | y9 => exact finish_pos_ne .ok _ rfl
  | busReset st b => cases st <;> exact nofun
  | k2 =>
    simp only [cleanupK2]
    split <;> exact nofun
  | _ => exact nofun

/-- A foreground step that leaves the position, and why. -/
theorem fg_stays {s : State} (hf : s.pos.isFetch = false) (h : (fg s).pos = s.pos) :
    s.abt.suspended = false ∧
      ((∃ b rest k, s.pos = .put (b :: rest) k ∧ s.inp.txFull = true)
        ∨ (s.pos = .resync ∧ s.rx.head? ≠ some s.cfg.term)
        ∨ (s.pos.waits = true ∧ s.abt.timedOut = false)) := by
  by_cases hput : ∃ bs k, s.pos = .put bs k
  · obtain ⟨bs, k, hp⟩ := hput
    simp only [fg, hp] at h
    obtain ⟨hs, hfull, b, rest, rfl⟩ := putStep_stays h
    exact ⟨hs, .inl ⟨b, rest, k, hp, hfull⟩⟩
  by_cases hr : s.pos = .resync
  · simp only [fg, hr] at h
    obtain ⟨hs, hhead⟩ := resyncStep_stays h
    exact ⟨hs, .inr (.inl ⟨hr, hhead⟩)⟩
  cases hw : s.pos.waits with
  | true =>
    obtain ⟨hs, ht, -⟩ := fg_wait_stays hw h
    exact ⟨hs, .inr (.inr ⟨rfl, ht⟩)⟩
  | false => exact absurd h (fg_moves hf (fun bs k hp => hput ⟨bs, k, hp⟩) hr hw)

/-! ## A blocked poll changes nothing -/

theorem fg_put_full {s : State} {b : Byte} {rest : List Byte} {k : PutReturn} (hs : s.abt.suspended = false)
    (hp : s.pos = .put (b :: rest) k) (hfull : s.inp.txFull = true) : fg s = s := by
  simp only [fg, hp]
  exact putStep_full rest k hs hfull

/-- An empty queue where no service-request poll is due (R73). -/
theorem hostGet_blocked {s : State} (hs : s.abt.suspended = false) (hr : s.rx = [])
    (hidle : ¬(s.disp.phase = .awaitLeader ∧ s.disp.leaderIdx = 0)) : hostGet s = .empty s := by
  rw [hostGet_empty hs hr, if_neg hidle]

theorem get_blocked {s : State} (hs : s.abt.suspended = false) (hr : s.rx = [])
    (hidle : ¬(s.disp.phase = .awaitLeader ∧ s.disp.leaderIdx = 0)) :
    (s.pos = .resync → fg s = s) ∧ fetchPoll s = .more s := by
  have hg := hostGet_blocked hs hr hidle
  exact ⟨fun hp => by simp only [fg, hp, resyncStep, hg], by simp only [fetchPoll, hg]⟩

end Sys2Proof.Machine
end

section
/-! PROOF. A fair tick ends a bounded wait (R97, R230). While a wait polls again neither a suspend nor a power-on reset
has fallen, so the timers run on with the bounds they have; each tick brings one nearer, and none is passed. -/

namespace Sys2Proof.Machine

/-! ## How far the bounds are -/

/-- The ticks that can fall before a counter meets its threshold, wrapping where it wraps (R222, R234). -/
def ticksBefore (bound : Option Half) (ctr : Half) : Nat :=
  match bound with
  | some n => (n - (ctr + 1#16)).toNat
  | none => 0

/-- A tick that does not cross a threshold brings it nearer by one. -/
theorem ticksBefore_countAgainst_lt {bound : Option Half} {ctr : Half} (hb : bound ≠ none)
    (h : (countAgainst bound ctr).2 = false) :
    ticksBefore bound (countAgainst bound ctr).1 < ticksBefore bound ctr := by
  cases bound with
  | none => exact absurd rfl hb
  | some n =>
    simp only [countAgainst, decide_eq_false_iff_not] at h
    simp only [ticksBefore, countAgainst]
    bv_omega

theorem ticksBefore_countAgainst_le {bound : Option Half} {ctr : Half} (h : (countAgainst bound ctr).2 = false) :
    ticksBefore bound (countAgainst bound ctr).1 ≤ ticksBefore bound ctr := by
  cases bound with
  | none => exact Nat.le_refl _
  | some n => exact Nat.le_of_lt (ticksBefore_countAgainst_lt (Option.some_ne_none n) h)

/-- The ticks before both counters, together. -/
def Timers.ticksLeft (t : Timers) : Nat := ticksBefore t.byteBound t.byteCtr + ticksBefore t.totalBound t.totalCtr

/-- The timers of an operation under a bound, the tick armed. -/
structure Timers.Bounded (t : Timers) : Prop where
  armed : t.tickArmed = true
  active : t.opActive = true
  bound : t.byteBound ≠ none ∨ t.totalBound ≠ none

/-- What a turn through which a wait goes on has in it, and what it makes of the timers: a tick brings the bounds
nearer, and nothing takes them farther. -/
structure WaitedThrough (t : Turn) (u v : Timers) : Prop where
  noSuspend : Event.suspend ∉ t
  bounded : v.Bounded
  noFarther : v.ticksLeft ≤ u.ticksLeft
  nearer : Event.tick ∈ t → v.ticksLeft < u.ticksLeft

/-- A tick that sets no flag brings the bounds nearer. -/
theorem tick_nearer {s : State} (h : s.tmo.Bounded) (ht : (tick s).abt.timedOut = false) :
    (tick s).tmo.Bounded ∧ (tick s).tmo.ticksLeft < s.tmo.ticksLeft := by
  have hgo : (s.tmo.tickArmed && s.tmo.opActive) = true := by rw [h.armed, h.active]; rfl
  simp only [tick, hgo, if_true, Bool.or_eq_false_iff] at ht ⊢
  obtain ⟨⟨-, hb⟩, ht⟩ := ht
  refine ⟨⟨h.armed, h.active, h.bound⟩, ?_⟩
  show ticksBefore s.tmo.byteBound _ + ticksBefore s.tmo.totalBound _ < _
  rcases h.bound with hn | hn
  · exact Nat.add_lt_add_of_lt_of_le (ticksBefore_countAgainst_lt hn hb) (ticksBefore_countAgainst_le ht)
  · exact Nat.add_lt_add_of_le_of_lt (ticksBefore_countAgainst_le hb) (ticksBefore_countAgainst_lt hn ht)

/-! ## A turn in which nothing ends the wait -/

/-- A flag that ends a bus wait is set, or a power-on reset has taken the foreground from it (R171, R61). -/
def State.Interrupted (s : State) : Prop := s.abt.suspended = true ∨ s.abt.timedOut = true ∨ s.pos = .leader

/-- No event takes an interruption back (R231, R61). -/
theorem turn_interrupted (t : Turn) {s : State} (h : s.Interrupted) : (s.turn t).Interrupted := by
  refine turn_keeps State.Interrupted (fun e u hu => ?_) t s h
  cases e with
  | tick =>
    obtain ⟨bc, tc, f, he⟩ := tick_frame u
    show (tick u).Interrupted
    rw [he]
    exact hu.imp_right (.imp_left fun h => by simp [h])
  | suspend => exact .inl rfl
  | por => exact .inr (.inr rfl)
  | hostByte _ | rxFlush | inputs _ => exact hu

/-- A bounded wait goes on through every turn that leaves it uninterrupted. -/
theorem turn_waitedThrough (t : Turn) {s : State} (h : s.tmo.Bounded) (hi : ¬(s.turn t).Interrupted) :
    WaitedThrough t s.tmo (s.turn t).tmo := by
  induction t generalizing s with
  | nil => exact ⟨List.not_mem_nil, h, Nat.le_refl _, fun hn => absurd hn List.not_mem_nil⟩
  | cons e t ih =>
    rw [turn_cons] at hi ⊢
    have hact : ¬(e.act s).Interrupted := mt (turn_interrupted t) hi
    cases e with
    | tick =>
      obtain ⟨hb, hlt⟩ := tick_nearer h (Bool.eq_false_iff.mpr fun ht => hact (.inr (.inl ht)))
      obtain ⟨hmem, hb', hle, -⟩ := ih hb hi
      have hnearer := Nat.lt_of_le_of_lt hle hlt
      exact ⟨by simpa using hmem, hb', Nat.le_of_lt hnearer, fun _ => hnearer⟩
    | suspend => exact absurd (.inl rfl) hact
    | por => exact absurd (.inr (.inr rfl)) hact
    | hostByte _ | rxFlush | inputs _ =>
      obtain ⟨hmem, hb, hle, hnearer⟩ := ih (by exact h) hi
      exact ⟨by simpa using hmem, hb, hle, fun htick => hnearer (by simpa using htick)⟩

/-! ## An endless execution that stays at a wait -/

theorem Pos.isFetch_of_waits {p : Pos} (h : p.waits = true) : p.isFetch = false := by
  cases p with
  | leader | body | item | drain | ready i => cases h
  | _ => rfl

/-- One more turn after which the foreground still stands at its wait. -/
theorem stepped_waits {s : State} {t : Turn} (hw : s.pos.waits = true) (hsched : s.sched = []) (hb : s.tmo.Bounded)
    (hstay : (s.given t).stepped.pos = s.pos) :
    (s.given t).stepped.sched = [] ∧ WaitedThrough t s.tmo (s.given t).stepped.tmo := by
  have hf : s.pos.isFetch = false := Pos.isFetch_of_waits hw
  have hne : s.pos ≠ .leader := fun h => by rw [h] at hf; cases hf
  rw [stepped_given s t hf hsched, runTurns_one t (s.given t) hf] at hstay ⊢
  have hp : ((s.given t).turn t).pos = s.pos := by
    rcases turn_pos t (s.given t) with hp | hp
    · exact hp
    · rw [hp, if_pos (show Pos.leader.isFetch = true from rfl)] at hstay
      exact absurd (hstay.symm.trans hp) hne
  rw [hp, hf, if_neg Bool.false_ne_true] at hstay ⊢
  obtain ⟨hs, ht, he⟩ := fg_wait_stays (hp ▸ hw) (hstay.trans hp.symm)
  rw [he]
  have hi : ¬((s.given t).turn t).Interrupted := by simp [State.Interrupted, hs, ht, hp, hne]
  exact ⟨rfl, turn_waitedThrough (s := s.given t) t hb hi⟩

/-- An execution from a bounded wait that is never left. -/
structure StaysAtWait (turns : Nat → Turn) (s : State) : Prop where
  waits : s.pos.waits = true
  sched : s.sched = []
  bounded : s.tmo.Bounded
  stays : ∀ n, (execution turns s n).pos = s.pos

variable {turns : Nat → Turn} {s : State}

/-- What one more turn makes of a state at which it still waits. -/
theorem StaysAtWait.next (h : StaysAtWait turns s) {n : Nat} (hsched : (execution turns s n).sched = [])
    (hb : (execution turns s n).tmo.Bounded) :
    (execution turns s (n + 1)).sched = []
    ∧ WaitedThrough (turns n) (execution turns s n).tmo (execution turns s (n + 1)).tmo :=
  stepped_waits (by rw [h.stays]; exact h.waits) hsched hb ((h.stays (n + 1)).trans (h.stays n).symm)

theorem StaysAtWait.bounded_at (h : StaysAtWait turns s) (n : Nat) :
    (execution turns s n).sched = [] ∧ (execution turns s n).tmo.Bounded := by
  induction n with
  | zero => exact ⟨h.sched, h.bounded⟩
  | succ n ih =>
    obtain ⟨hsched, hw⟩ := h.next ih.1 ih.2
    exact ⟨hsched, hw.bounded⟩

theorem StaysAtWait.waitedThrough (h : StaysAtWait turns s) (n : Nat) :
    WaitedThrough (turns n) (execution turns s n).tmo (execution turns s (n + 1)).tmo := by
  obtain ⟨hsched, hb⟩ := h.bounded_at n
  exact (h.next hsched hb).2

theorem StaysAtWait.ticksLeft_le (h : StaysAtWait turns s) {n m : Nat} (hm : n ≤ m) :
    (execution turns s m).tmo.ticksLeft ≤ (execution turns s n).tmo.ticksLeft := by
  induction hm with
  | refl => exact Nat.le_refl _
  | step _ ih => exact Nat.le_trans (h.waitedThrough _).noFarther ih

/-- The tick stays armed, so a fair one would come again and again and bring the bounds nearer for ever. -/
theorem StaysAtWait.not_fair (h : StaysAtWait turns s) : ¬TickFair turns s := by
  intro hfair
  have descend : ∀ k n, (execution turns s n).tmo.ticksLeft ≠ k := by
    intro k
    induction k using Nat.strongRecOn with
    | ind k ih =>
      intro n hn
      obtain ⟨m, hm, htick⟩ := hfair n fun m _ => ⟨(h.bounded_at m).2.armed, (h.waitedThrough m).noSuspend⟩
      have hlt : (execution turns s (m + 1)).tmo.ticksLeft < k :=
        hn ▸ Nat.lt_of_lt_of_le ((h.waitedThrough m).nearer htick) (h.ticksLeft_le hm)
      exact ih _ hlt (m + 1) rfl
  exact descend _ 0 rfl

/-- A bounded wait is left under a fair tick. -/
theorem wait_left_of_fair (hw : s.pos.waits = true) (hs : s.sched = []) (hb : s.tmo.Bounded)
    (hfair : TickFair turns s) : ∃ n, (execution turns s n).pos ≠ s.pos := by
  refine Classical.byContradiction fun hleft => ?_
  have hstay : ∀ n, (execution turns s n).pos = s.pos := fun n =>
    Classical.byContradiction fun hn => hleft ⟨n, hn⟩
  exact StaysAtWait.not_fair ⟨hw, hs, hb, hstay⟩ hfair

end Sys2Proof.Machine
end

section
/-! PROOF. The statement on forward progress (R97). -/

namespace Sys2Proof.Machine

/-- Settles O60: where a step stays (`fg_stays`), what a blocked poll leaves, the end of a bounded wait by descent on
the ticks that are left (`wait_left_of_fair`). -/
theorem forwardProgress : Obligations.ForwardProgress := by
  unfold Obligations.ForwardProgress
  refine ⟨fun _ => fg_stays, fun s hs => ⟨fun _ _ _ => fg_put_full hs, get_blocked hs⟩, ?_⟩
  intro turns s hw hsched harmed hactive hbound hfair
  exact wait_left_of_fair hw hsched ⟨harmed, hactive, hbound⟩ hfair

end Sys2Proof.Machine
end

section
/-! PROOF. Decimal operands (R121): the digits a byte string spells, and the number they make. -/

namespace Sys2Proof.Machine

/-! ## Digits and the bytes that spell them -/

theorem digitByte_toNat (d : Fin 10) : (digitByte d).toNat = 0x30 + d.val := by
  simp only [digitByte, BitVec.toNat_ofNat]
  omega

theorem digitOf_eq_some_iff {b : Byte} {d : Fin 10} : digitOf b = some d ↔ b = digitByte d := by
  constructor
  · intro h
    unfold digitOf at h
    split at h
    case isTrue hb =>
      obtain rfl := Option.some.inj h
      apply BitVec.eq_of_toNat_eq
      rw [digitByte_toNat]
      dsimp only
      omega
    case isFalse => cases h
  · rintro rfl
    have h := digitByte_toNat d
    have hrange : 0x30 ≤ (digitByte d).toNat ∧ (digitByte d).toNat ≤ 0x39 := by omega
    rw [digitOf, dif_pos hrange]
    simp [h]

theorem digitsOf_map_digitByte (d : Digits) : digitsOf (d.map digitByte) = some d := by
  induction d with
  | nil => rfl
  | cons x d ih => simp [digitsOf, digitOf_eq_some_iff.2 rfl, ih]

theorem digitsOf_eq_some_iff {bs : List Byte} {d : Digits} : digitsOf bs = some d ↔ bs = d.map digitByte := by
  constructor
  · intro h
    induction bs generalizing d with
    | nil => cases h; rfl
    | cons b bs ih =>
      unfold digitsOf at h
      split at h
      case h_1 x ds hx hds =>
        cases h
        rw [digitOf_eq_some_iff.1 hx, ih hds, List.map_cons]
      case h_2 => cases h
  · rintro rfl
    exact digitsOf_map_digitByte d

/-- `ParseDec` accepts the strings of one or more digits, and gives their number (R121). -/
theorem parseDec_eq_some_iff {bs : List Byte} {v : Nat} :
    parseDec bs = some v ↔ ∃ d : Digits, d.map digitByte = bs ∧ d.parse = some v := by
  simp only [parseDec, Option.bind_eq_some_iff, digitsOf_eq_some_iff, eq_comm (a := bs)]

/-! ## The number by its places -/

/-- The sum of the digits that a byte string spells, each times the power of ten of its place. -/
def placeSum (bs : List Byte) : Nat :=
  ((List.range bs.length).map fun k => (bs[k]!.toNat - 0x30) * 10 ^ (bs.length - 1 - k)).sum

theorem placeSum_cons (b : Byte) (bs : List Byte) :
    placeSum (b :: bs) = (b.toNat - 0x30) * 10 ^ bs.length + placeSum bs := by
  simp [placeSum, List.range_succ_eq_map, Function.comp_def, Nat.sub_sub, Nat.add_comm 1]

/-- Reading digits from the left carries what has been read up by as many places (R121). -/
theorem foldl_eq_placeSum (d : Digits) (v : Nat) :
    d.foldl (fun v x => 10 * v + x.val) v = v * 10 ^ d.length + placeSum (d.map digitByte) := by
  induction d generalizing v with
  | nil => simp [placeSum]
  | cons x d ih =>
    rw [List.foldl_cons, ih, List.map_cons, placeSum_cons, digitByte_toNat, Nat.add_sub_cancel_left, List.length_map,
      List.length_cons, Nat.pow_succ', ← Nat.mul_assoc, Nat.mul_comm v 10, Nat.add_mul, Nat.add_assoc]

theorem parse_eq_placeSum {d : Digits} (h : d ≠ []) : d.parse = some (placeSum (d.map digitByte)) := by
  cases d with
  | nil => exact absurd rfl h
  | cons x d => simp only [Digits.parse, decimalValue, foldl_eq_placeSum, Nat.zero_mul, Nat.zero_add]

/-- A string of bytes 0x30 to 0x39 is one that digits spell. -/
theorem exists_digits {bs : List Byte} (h : ∀ b ∈ bs, 0x30 ≤ b.toNat ∧ b.toNat ≤ 0x39) :
    ∃ d : Digits, d.map digitByte = bs := by
  induction bs with
  | nil => exact ⟨[], rfl⟩
  | cons b bs ih =>
    obtain ⟨hb, hbs⟩ := List.forall_mem_cons.1 h
    obtain ⟨d, rfl⟩ := ih hbs
    have hx : digitOf b = some ⟨b.toNat - 0x30, by omega⟩ := dif_pos hb
    exact ⟨_ :: d, by rw [List.map_cons, ← digitOf_eq_some_iff.1 hx]⟩

/-- Settles O4: what `ParseDec` accepts is what digits spell, and their number is the sum by places. -/
theorem parseDecimal : Obligations.ParseDecimal := by
  unfold Obligations.ParseDecimal
  refine ⟨rfl, fun bs b hb hout => ?_, fun bs hne hin => ?_⟩
  · refine Option.eq_none_iff_forall_ne_some.2 fun v hv => ?_
    obtain ⟨d, rfl, -⟩ := parseDec_eq_some_iff.1 hv
    obtain ⟨x, -, rfl⟩ := List.mem_map.1 hb
    rw [digitByte_toNat] at hout
    omega
  · obtain ⟨d, rfl⟩ := exists_digits hin
    exact parseDec_eq_some_iff.2 ⟨d, rfl, parse_eq_placeSum (mt (congrArg (List.map digitByte)) hne)⟩

end Sys2Proof.Machine
end

section
/-! PROOF. `DecodeLine` (R111) is exact: a body decodes to an instruction just when it is that instruction's body and
the operand is one the command takes. -/

namespace Sys2Proof.Machine

/-! ## The operands -/

variable {ps : List Byte} {i j : Instr}

theorem noOperand_eq_some_iff : noOperand ps j = some i ↔ ps = [] ∧ j = i := by
  simp [noOperand]

theorem literalOperand_eq_some_iff {f : Byte → Instr} : literalOperand ps f = some i ↔ ∃ b, ps = [b] ∧ f b = i := by
  unfold literalOperand
  split
  case h_1 b => simp
  case h_2 hne => exact iff_of_false nofun fun ⟨b, hb, _⟩ => hne b hb

theorem choiceOperand_eq_some_iff {f : Bool → Instr} :
    choiceOperand ps f = some i ↔ ∃ x, ps = [choiceByte x] ∧ f x = i := by
  constructor
  · intro h
    unfold choiceOperand at h
    split at h
    case h_2 => cases h
    case h_1 b =>
      split at h
      case isTrue hb => exact ⟨false, by rw [hb]; rfl, Option.some.inj h⟩
      split at h
      case isTrue hb => exact ⟨true, by rw [hb]; rfl, Option.some.inj h⟩
      case isFalse => cases h
  · rintro ⟨x, rfl, rfl⟩
    cases x <;> rfl

/-- The character of an identification string's number (R123). -/
def identByte (n : Fin 3) : Byte := digitByte (n.castLE (by omega))

theorem identOperand_eq_some_iff : identOperand ps = some i ↔ ∃ n, ps = [identByte n] ∧ .ident n = i := by
  constructor
  · intro h
    unfold identOperand at h
    split at h
    case h_2 => cases h
    case h_1 b =>
      split at h
      case isTrue hb => exact ⟨0, by rw [hb]; rfl, Option.some.inj h⟩
      split at h
      case isTrue hb => exact ⟨1, by rw [hb]; rfl, Option.some.inj h⟩
      split at h
      case isTrue hb => exact ⟨2, by rw [hb]; rfl, Option.some.inj h⟩
      case isFalse => cases h
  · rintro ⟨n, rfl, rfl⟩
    match n with
    | 0 | 1 | 2 => rfl

theorem decimalOperand_eq_some_iff {top : Option Nat} {f : Digits → Instr} :
    decimalOperand ps top f = some i ↔
      ∃ d v, ps = d.map digitByte ∧ d.parse = some v ∧ (∀ m ∈ top, v ≤ m) ∧ f d = i := by
  unfold decimalOperand
  constructor
  · intro h
    split at h
    case h_1 => cases h
    case h_2 d hd =>
      split at h
      case h_1 => cases h
      case h_2 v hv =>
        refine ⟨d, v, digitsOf_eq_some_iff.1 hd, hv, ?_⟩
        cases top with
        | none => exact ⟨by simp, Option.some.inj h⟩
        | some m => simpa using h
  · rintro ⟨d, v, rfl, hv, htop, rfl⟩
    rw [digitsOf_map_digitByte]
    simp only [hv]
    cases top with
    | none => rfl
    | some m => exact if_pos (htop m rfl)

/-! ## The rows of R111 -/

theorem lineCommand_of_not_mem {l : Byte} (h : l ∉ letters) (ps : List Byte) : lineCommand (l :: ps) = none := by
  simp only [letters, List.mem_cons, List.not_mem_nil, or_false, not_or] at h
  simp [lineCommand, h]

theorem lineCommand_e (ps : List Byte) : lineCommand (letterE :: ps) = decimalOperand ps (some 7) .setWriteMode := rfl
theorem lineCommand_t (ps : List Byte) : lineCommand (letterT :: ps) = decimalOperand ps none .setByteTimeout := rfl
theorem lineCommand_T (ps : List Byte) :
    lineCommand (letterUpperT :: ps) = decimalOperand ps none .setTotalTimeout := rfl
theorem lineCommand_f (ps : List Byte) : lineCommand (letterF :: ps) = decimalOperand ps none .setFirstTimeout := rfl

/-- The letters by the operand their command takes: a literal byte, none, a bounded number, a number, `0` or `1`, the
number of an identification string (R111, R120 to R123). -/
theorem operand_of_mem_letters {l : Byte} (h : l ∈ letters) :
    (l = letterC ∨ l = letterLowerC) ∨ (l = letterQuery ∨ l = letterB ∨ l = letterZ ∨ l = letterO ∨ l = letterS)
    ∨ l = letterE ∨ (l = letterT ∨ l = letterUpperT ∨ l = letterF) ∨ (l = letterM ∨ l = letterQ) ∨ l = letterI := by
  simp only [letters, List.mem_cons, List.not_mem_nil, or_false] at h
  grind

theorem operandOk_setWriteMode {d : Digits} :
    operandOk (.setWriteMode d) = true ↔ ∃ v, d.parse = some v ∧ v ≤ 7 := by
  cases h : d.parse <;> simp [operandOk, h]

/-- A row of R111 reads only what is the body of its command (R111 rows 1 to 15). -/
theorem body_of_lineCommand {body : List Byte} (h : lineCommand body = some i) :
    i.isCommand = true ∧ operandOk i = true ∧ bodyOf i = some body := by
  cases body with
  | nil => cases h; exact ⟨rfl, rfl, rfl⟩
  | cons l ps =>
    by_cases hl : l ∈ letters
    case neg => rw [lineCommand_of_not_mem hl] at h; cases h
    rcases operand_of_mem_letters hl with hl | hl | rfl | hl | hl | rfl
    · rcases hl with rfl | rfl
      all_goals
        obtain ⟨b, rfl, rfl⟩ := literalOperand_eq_some_iff.1 h
        exact ⟨rfl, rfl, rfl⟩
    · rcases hl with rfl | rfl | rfl | rfl | rfl
      all_goals
        obtain ⟨rfl, rfl⟩ := noOperand_eq_some_iff.1 h
        exact ⟨rfl, rfl, rfl⟩
    · rw [lineCommand_e, decimalOperand_eq_some_iff] at h
      obtain ⟨d, v, rfl, hv, hle, rfl⟩ := h
      exact ⟨rfl, operandOk_setWriteMode.2 ⟨v, hv, hle 7 rfl⟩, rfl⟩
    · rcases hl with rfl | rfl | rfl
      all_goals
        simp only [lineCommand_t, lineCommand_T, lineCommand_f, decimalOperand_eq_some_iff] at h
        obtain ⟨d, v, rfl, hv, -, rfl⟩ := h
        exact ⟨rfl, Option.isSome_iff_exists.2 ⟨v, hv⟩, rfl⟩
    · rcases hl with rfl | rfl
      all_goals
        obtain ⟨x, rfl, rfl⟩ := choiceOperand_eq_some_iff.1 h
        exact ⟨rfl, rfl, rfl⟩
    · obtain ⟨n, rfl, rfl⟩ := identOperand_eq_some_iff.1 h
      exact ⟨rfl, rfl, rfl⟩

/-- A command's body is read by its row of R111, where its operand is one the command takes. -/
theorem lineCommand_of_body {body : List Byte} (hi : i.isCommand = true) (hop : operandOk i = true)
    (hb : bodyOf i = some body) : lineCommand body = some i := by
  cases i with
  | pwron | recvBlk | recvByte | busRst | pwrOff | status | busCmdRelease b | busCmdHold b => cases hb; rfl
  | setWriteMode d =>
    cases hb
    obtain ⟨v, hv, hle⟩ := operandOk_setWriteMode.1 hop
    rw [lineCommand_e, decimalOperand_eq_some_iff]
    exact ⟨d, v, rfl, hv, fun _ hm => Option.some.inj hm ▸ hle, rfl⟩
  | setByteTimeout d | setTotalTimeout d | setFirstTimeout d =>
    cases hb
    obtain ⟨v, hv⟩ := Option.isSome_iff_exists.1 hop
    simp only [lineCommand_t, lineCommand_T, lineCommand_f, decimalOperand_eq_some_iff]
    exact ⟨d, v, rfl, hv, nofun, rfl⟩
  | setRen x | setSrq x => cases hb; exact choiceOperand_eq_some_iff.2 ⟨x, rfl, rfl⟩
  | ident n => cases hb; exact identOperand_eq_some_iff.2 ⟨n, rfl, rfl⟩
  | blk => cases hb
  | escStart | escEsc | escEnd | escChk | escOther _ | literal _ | syntaxError _ | resync _ => cases hi

/-- `DecodeLine` gives an instruction for its body and for no other (R111, row 16 included). -/
theorem decodeLine_eq_iff {body : List Byte} : decodeLine body = i ↔ operandOk i = true ∧ bodyOf i = some body := by
  constructor
  · rintro rfl
    cases hl : lineCommand body with
    | some j =>
      have hj : decodeLine body = j := by simp [decodeLine, hl]
      exact hj ▸ (body_of_lineCommand hl).2
    | none =>
      have hj : decodeLine body = .syntaxError (.line body) := by simp [decodeLine, hl]
      rw [hj]
      exact ⟨beq_iff_eq.2 hj, rfl⟩
  · rintro ⟨hop, hb⟩
    cases hi : i.isCommand with
    | true => simp [decodeLine, lineCommand_of_body hi hop hb]
    | false =>
      cases i with
      | syntaxError bad =>
        cases bad with
        | line b => cases hb; exact beq_iff_eq.1 hop
        | oversized b x => cases hb
      | escStart | escEsc | escEnd | escChk | escOther _ | literal _ | resync _ => cases hb
      | _ => cases hi

end Sys2Proof.Machine
end

section
/-! PROOF. The statement on the table of R111: each row is its command's body, and a body of no row is row 16's. -/

namespace Sys2Proof.Machine

theorem decodeLine_of_lineCommand_none {body : List Byte} (h : lineCommand body = none) :
    decodeLine body = .syntaxError (.line body) := by
  simp [decodeLine, h]

/-- The row of `e`, for the string of a number of at most 7 (R111 row 8, R122). -/
theorem decodeLine_setWriteMode {ps : List Byte} {v : Nat} (h : parseDec ps = some v) (hle : v ≤ 7) :
    ∃ d, d.parse = some v ∧ d.map digitByte = ps ∧ decodeLine (letterE :: ps) = .setWriteMode d := by
  obtain ⟨d, rfl, hv⟩ := parseDec_eq_some_iff.1 h
  exact ⟨d, hv, rfl, decodeLine_eq_iff.2 ⟨operandOk_setWriteMode.2 ⟨v, hv, hle⟩, rfl⟩⟩

/-- The rows of `t`, `T` and `f`, for the string of any number (R111 rows 9 to 11). -/
theorem decodeLine_setTimeout {ps : List Byte} {v : Nat} (h : parseDec ps = some v) :
    ∃ d, d.parse = some v ∧ d.map digitByte = ps ∧ decodeLine (letterT :: ps) = .setByteTimeout d
      ∧ decodeLine (letterUpperT :: ps) = .setTotalTimeout d ∧ decodeLine (letterF :: ps) = .setFirstTimeout d := by
  obtain ⟨d, rfl, hv⟩ := parseDec_eq_some_iff.1 h
  have hop : d.parse.isSome = true := Option.isSome_iff_exists.2 ⟨v, hv⟩
  exact ⟨d, hv, rfl, decodeLine_eq_iff.2 ⟨hop, rfl⟩, decodeLine_eq_iff.2 ⟨hop, rfl⟩, decodeLine_eq_iff.2 ⟨hop, rfl⟩⟩

/-- Settles O5: the rows without a number compute, those with one are the two lemmas above; were a body of no row a
command, it would be that command's body (`body_of_lineCommand`), which is a row. -/
theorem lineTable : Obligations.LineTable := by
  unfold Obligations.LineTable
  refine ⟨rfl, fun _ => rfl, fun _ => rfl, rfl, rfl, rfl, rfl, fun _ _ => decodeLine_setWriteMode,
    fun _ _ => decodeLine_setTimeout, rfl, rfl, rfl, rfl, rfl, rfl, rfl, rfl, ?_⟩
  intro body hnil hC hc hfixed hmode htimeout
  cases hl : lineCommand body with
  | none => exact decodeLine_of_lineCommand_none hl
  | some i =>
    exfalso
    obtain ⟨hi, hop, hb⟩ := body_of_lineCommand hl
    cases i with
    | pwron => cases hb; exact hnil rfl
    | busCmdRelease x => cases hb; exact hC x rfl
    | busCmdHold x => cases hb; exact hc x rfl
    | recvBlk | recvByte | busRst | pwrOff | status => cases hb; exact hfixed (by decide)
    | setRen x | setSrq x => cases hb; cases x <;> exact hfixed (by decide)
    | ident n => cases hb; match n with | 0 | 1 | 2 => exact hfixed (by decide)
    | setWriteMode d =>
      cases hb
      obtain ⟨v, hv, hle⟩ := operandOk_setWriteMode.1 hop
      exact Nat.not_lt.2 hle (hmode _ v rfl (parseDec_eq_some_iff.2 ⟨d, rfl, hv⟩))
    | setByteTimeout d | setTotalTimeout d | setFirstTimeout d =>
      cases hb
      obtain ⟨v, hv⟩ := Option.isSome_iff_exists.1 hop
      exact Option.eq_none_iff_forall_ne_some.1 (htimeout _ _ (by decide) rfl) v (parseDec_eq_some_iff.2 ⟨d, rfl, hv⟩)
    | blk => cases hb
    | escStart | escEsc | escEnd | escChk | escOther _ | literal _ | syntaxError _ | resync _ => cases hi

end Sys2Proof.Machine
end

section
/-! PROOF. What the parser does with a body (R253, R256) and the item automaton with an item (R125, R141), and what the
encoder writes of each format. The parser takes one more byte of a body just when the longer body may still stand in a
line (`bodyOk_concat`, `parseByte_more`). -/

namespace Sys2Proof.Machine

variable {c : Cfg} {i : Instr} {body buf bs rest : List Byte} {b x : Byte}

/-! ## Bodies of lines -/

theorem bodyOk_iff : bodyOk c body = true ↔
    c.term ∉ body ∧ body.length ≤ c.maxCmdLen ∧ body.take 2 ≠ [c.escape, c.blockStart] := by
  simp [bodyOk, and_assoc]

theorem bodyOk_nil (c : Cfg) : bodyOk c [] = true := by
  simp [bodyOk]

theorem take_two_concat_eq_iff {e s : Byte} :
    (buf ++ [b]).take 2 = [e, s] ↔ buf.take 2 = [e, s] ∨ (buf = [e] ∧ b = s) := by
  match buf with
  | [] | [_] | _ :: _ :: _ => simp

/-- A body with one byte more is one when the byte is not `TERM`, does not complete the block-start marker and has room:
the three tests of R256. -/
theorem bodyOk_concat : bodyOk c (buf ++ [b]) = true ↔
    bodyOk c buf = true ∧ b ≠ c.term ∧ ¬(buf = [c.escape] ∧ b = c.blockStart) ∧ buf.length < c.maxCmdLen := by
  simp only [bodyOk_iff, ne_eq, take_two_concat_eq_iff, List.mem_append, List.mem_singleton, List.length_append,
    List.length_singleton]
  constructor
  · rintro ⟨hterm, hlen, htake⟩
    simp only [not_or] at hterm htake
    exact ⟨⟨hterm.1, by omega, htake.1⟩, Ne.symm hterm.2, htake.2, hlen⟩
  · rintro ⟨⟨hterm, -, htake⟩, hb, hmark, hlen⟩
    exact ⟨not_or.2 ⟨hterm, Ne.symm hb⟩, hlen, not_or.2 ⟨htake, hmark⟩⟩

theorem bodyOk_of_append (h : bodyOk c (buf ++ body) = true) : bodyOk c buf = true := by
  induction body generalizing buf with
  | nil => rwa [List.append_nil] at h
  | cons b body ih =>
    rw [List.append_cons] at h
    exact (bodyOk_concat.1 (ih h)).1

/-! ## The parser in a body (R256) -/

theorem parseByte_term (c : Cfg) (buf : List Byte) : parseByte c (.body buf) c.term = .done (decodeLine buf) := by
  simp [parseByte]

theorem parseByte_blockStart (hs : c.blockStart ≠ c.term) :
    parseByte c (.body [c.escape]) c.blockStart = .done .blk := by
  simp [parseByte, hs]

theorem parseByte_full (hb : b ≠ c.term) (hmark : ¬(buf = [c.escape] ∧ b = c.blockStart))
    (hfull : c.maxCmdLen ≤ buf.length) : parseByte c (.body buf) b = .done (.syntaxError (.oversized buf b)) := by
  simp [parseByte, hb, hmark, hfull]

theorem parseByte_more (h : bodyOk c (buf ++ [b]) = true) : parseByte c (.body buf) b = .more (.body (buf ++ [b])) := by
  obtain ⟨-, hb, hmark, hlen⟩ := bodyOk_concat.1 h
  simp [parseByte, hb, hmark, Nat.not_le.2 hlen]

theorem decodeFrom_more {st st' : ParseState} (h : parseByte c st b = .more st') :
    decodeFrom c st (b :: bs) = decodeFrom c st' bs := by
  simp [decodeFrom, h]

theorem decodeFrom_done {st : ParseState} (h : parseByte c st b = .done i) :
    decodeFrom c st (b :: bs) = .ok (i, bs) := by
  simp [decodeFrom, h]

/-- The parser reads a body through. -/
theorem decodeFrom_body (h : bodyOk c (buf ++ body) = true) :
    decodeFrom c (.body buf) (body ++ bs) = decodeFrom c (.body (buf ++ body)) bs := by
  induction body generalizing buf with
  | nil => rw [List.nil_append, List.append_nil]
  | cons b body ih =>
    rw [List.append_cons] at h
    rw [List.cons_append, decodeFrom_more (parseByte_more (bodyOk_of_append h)), ih h, ← List.append_cons]

/-- After the leader the parser is at the start of a body (R253). -/
theorem decode_command_leader (c : Cfg) (bs : List Byte) :
    decode c .command (c.leader0 :: c.leader1 :: bs) = decodeFrom c (.body []) bs := by
  simp [decode, decodeFrom, parseByte]

theorem decode_command_first (hb : b ≠ c.leader0) : decode c .command (b :: bs) = .ok (.resync (.first b), bs) := by
  simp [decode, decodeFrom, parseByte, hb]

theorem decode_command_second (hb : b ≠ c.leader1) :
    decode c .command (c.leader0 :: b :: bs) = .ok (.resync (.second b), bs) := by
  simp [decode, decodeFrom, parseByte, hb]

theorem decode_command_body (h : bodyOk c body = true) :
    decode c .command (c.leader0 :: c.leader1 :: (body ++ bs)) = decodeFrom c (.body body) bs := by
  rw [decode_command_leader, decodeFrom_body (buf := []) h, List.nil_append]

/-! ## The items of a block (R125, R141) -/

theorem decode_block_escape (h : escapedItem c x = i) : decode c .block (c.escape :: x :: bs) = .ok (i, bs) := by
  simp [decode, decodeItemFrom, itemByte, h]

theorem decode_block_literal (hx : x ≠ c.escape) : decode c .block (x :: bs) = .ok (.literal x, bs) := by
  simp [decode, decodeItemFrom, itemByte, hx]

/-- The second byte of each item (R125), under an allowed configuration. -/
theorem escapedItem_markers (hc : c.ok = true) :
    escapedItem c c.escape = .escEsc ∧ escapedItem c c.blockEnd = .escEnd ∧ escapedItem c c.checkpoint = .escChk
    ∧ escapedItem c c.blockStart = .escStart := by
  obtain ⟨hse, hee, hce, hsend, hsc, hec, -, -⟩ := Cfg.ok_markers hc
  simp [escapedItem, hse, hee, hce, hsend, hsc, hec.symm]

theorem escapedItem_other (h1 : x ≠ c.escape) (h2 : x ≠ c.blockEnd) (h3 : x ≠ c.checkpoint) (h4 : x ≠ c.blockStart) :
    escapedItem c x = .escOther x := by
  simp [escapedItem, h1, h2, h3, h4]

/-! ## What the encoder writes of each format -/

theorem encode_of_body (h : bodyOf i = some body) : encode c i = c.leader0 :: c.leader1 :: (body ++ [c.term]) := by
  simp [encode, h]

theorem contextOf_of_body (h : bodyOf i = some body) : contextOf i = .command := by
  cases i with
  | escStart | escEsc | escEnd | escChk | escOther _ | literal _ => cases h
  | _ => rfl

theorem bytesOk_of_body (h : bodyOf i = some body) : bytesOk c i = true := by
  cases i with
  | escOther _ | literal _ | resync _ => cases h
  | syntaxError bad =>
    cases bad with
    | line _ => rfl
    | oversized _ _ => cases h
  | _ => rfl

theorem wf_of_body (h : bodyOf i = some body) : i.wf c = true ↔ operandOk i = true ∧ bodyOk c body = true := by
  simp [Instr.wf, h, bytesOk_of_body h]

theorem wf_oversized : Instr.wf c (.syntaxError (.oversized body b)) = true ↔
    body.length = c.maxCmdLen ∧ bodyOk c body = true ∧ b ≠ c.term := by
  simp [Instr.wf, operandOk, bytesOk, bodyOf, and_assoc]

theorem wf_resync_first : Instr.wf c (.resync (.first b)) = true ↔ b ≠ c.leader0 := by
  simp [Instr.wf, operandOk, bytesOk, bodyOf]

theorem wf_resync_second : Instr.wf c (.resync (.second b)) = true ↔ b ≠ c.leader1 := by
  simp [Instr.wf, operandOk, bytesOk, bodyOf]

theorem wf_literal : Instr.wf c (.literal x) = true ↔ x ≠ c.escape := by
  simp [Instr.wf, operandOk, bytesOk, bodyOf]

theorem wf_escOther : Instr.wf c (.escOther x) = true ↔
    x ≠ c.escape ∧ x ≠ c.blockEnd ∧ x ≠ c.checkpoint ∧ x ≠ c.blockStart := by
  simp [Instr.wf, operandOk, bytesOk, bodyOf]

end Sys2Proof.Machine
end

section
/-! PROOF. Decoder and encoder agree (R101 to R104, R125, R130 to R133): both directions for a line rest on
`decodeLine_eq_iff`, the exactness of R111. -/

namespace Sys2Proof.Machine

variable {c : Cfg} {i : Instr} {body buf bs rest : List Byte} {b : Byte}

/-! ## Decoding what was encoded -/

theorem decode_encode_line (hb : bodyOf i = some body) (hi : i.wf c = true) :
    decode c (contextOf i) (encode c i ++ rest) = .ok (i, rest) := by
  obtain ⟨hop, hbody⟩ := (wf_of_body hb).1 hi
  rw [contextOf_of_body hb, encode_of_body hb, List.cons_append, List.cons_append, List.append_assoc,
    decode_command_body hbody, List.singleton_append, decodeFrom_done (parseByte_term c body),
    decodeLine_eq_iff.2 ⟨hop, hb⟩]

theorem decode_encode_blk (hc : c.ok = true) :
    decode c .command (encode c .blk ++ rest) = .ok (.blk, rest) := by
  obtain ⟨-, -, -, -, -, -, het, hst⟩ := Cfg.ok_markers hc
  have hmax := Laws.EncodedLength.maxCmdLen_ge hc
  have hbody : bodyOk c [c.escape] = true :=
    (bodyOk_concat (buf := [])).2 ⟨bodyOk_nil c, het, by simp, by rw [List.length_nil]; omega⟩
  exact (decode_command_body hbody).trans (decodeFrom_done (parseByte_blockStart hst))

theorem decode_encode_oversized (hc : c.ok = true) (hi : Instr.wf c (.syntaxError (.oversized body b)) = true) :
    decode c .command (encode c (.syntaxError (.oversized body b)) ++ rest) =
      .ok (.syntaxError (.oversized body b), rest) := by
  obtain ⟨hlen, hbody, hb⟩ := wf_oversized.1 hi
  have hmark : ¬(body = [c.escape] ∧ b = c.blockStart) := by
    rintro ⟨rfl, -⟩
    have hmax := Laws.EncodedLength.maxCmdLen_ge hc
    rw [← hlen, List.length_singleton] at hmax
    omega
  have hbytes : encode c (.syntaxError (.oversized body b)) ++ rest =
      c.leader0 :: c.leader1 :: (body ++ b :: rest) := by
    simp [encode, bodyOf]
  rw [hbytes, decode_command_body hbody, decodeFrom_done (parseByte_full hb hmark (Nat.le_of_eq hlen.symm))]

/-! ## Whatever the decoder reads -/

/-- The bytes are the encoding of a well-formed instruction of the context, and the rest. -/
def EncodesThenRest (c : Cfg) (ctx : Context) (bs : List Byte) (i : Instr) (rest : List Byte) : Prop :=
  i.wf c = true ∧ contextOf i = ctx ∧ bs = encode c i ++ rest

theorem encodes_of_decodeFrom_body (hbuf : bodyOk c buf = true) (h : decodeFrom c (.body buf) bs = .ok (i, rest)) :
    EncodesThenRest c .command (c.leader0 :: c.leader1 :: (buf ++ bs)) i rest := by
  induction bs generalizing buf with
  | nil => cases h
  | cons b bs ih =>
    by_cases hb : b = c.term
    · rw [hb, decodeFrom_done (parseByte_term c buf)] at h
      cases h
      obtain ⟨hop, hbody⟩ := decodeLine_eq_iff.1 (rfl : decodeLine buf = _)
      exact ⟨(wf_of_body hbody).2 ⟨hop, hbuf⟩, contextOf_of_body hbody, by simp [encode_of_body hbody, hb]⟩
    by_cases hmark : buf = [c.escape] ∧ b = c.blockStart
    · obtain ⟨rfl, rfl⟩ := hmark
      rw [decodeFrom_done (parseByte_blockStart hb)] at h
      cases h
      exact ⟨rfl, rfl, rfl⟩
    by_cases hlen : buf.length < c.maxCmdLen
    · have hmore := bodyOk_concat.2 ⟨hbuf, hb, hmark, hlen⟩
      rw [decodeFrom_more (parseByte_more hmore)] at h
      rw [List.append_cons]
      exact ih hmore h
    · rw [decodeFrom_done (parseByte_full hb hmark (Nat.not_lt.1 hlen))] at h
      cases h
      have hfull : buf.length = c.maxCmdLen := Nat.le_antisymm (bodyOk_iff.1 hbuf).2.1 (Nat.not_lt.1 hlen)
      exact ⟨wf_oversized.2 ⟨hfull, hbuf, hb⟩, rfl, by simp [encode, bodyOf]⟩

theorem encodes_of_decode_command (h : decode c .command bs = .ok (i, rest)) :
    EncodesThenRest c .command bs i rest := by
  match bs with
  | [] => cases h
  | b :: bs =>
    by_cases hb : b = c.leader0
    case neg =>
      rw [decode_command_first hb] at h
      cases h
      exact ⟨wf_resync_first.2 hb, rfl, rfl⟩
    subst hb
    match bs with
    | [] => simp [decode, decodeFrom, parseByte] at h
    | b :: bs =>
      by_cases hb : b = c.leader1
      case neg =>
        rw [decode_command_second hb] at h
        cases h
        exact ⟨wf_resync_second.2 hb, rfl, rfl⟩
      subst hb
      rw [decode_command_leader] at h
      exact encodes_of_decodeFrom_body (bodyOk_nil c) h

/-- Each byte after `ESCAPE` makes one well-formed item of its own (R125). -/
theorem encodes_escapedItem (c : Cfg) (x : Byte) (rest : List Byte) :
    EncodesThenRest c .block (c.escape :: x :: rest) (escapedItem c x) rest := by
  unfold escapedItem
  by_cases h1 : x = c.escape
  case pos => rw [if_pos h1]; exact ⟨rfl, rfl, by rw [h1]; rfl⟩
  rw [if_neg h1]
  by_cases h2 : x = c.blockEnd
  case pos => rw [if_pos h2]; exact ⟨rfl, rfl, by rw [h2]; rfl⟩
  rw [if_neg h2]
  by_cases h3 : x = c.checkpoint
  case pos => rw [if_pos h3]; exact ⟨rfl, rfl, by rw [h3]; rfl⟩
  rw [if_neg h3]
  by_cases h4 : x = c.blockStart
  case pos => rw [if_pos h4]; exact ⟨rfl, rfl, by rw [h4]; rfl⟩
  rw [if_neg h4]
  exact ⟨wf_escOther.2 ⟨h1, h2, h3, h4⟩, rfl, rfl⟩

theorem encodes_of_decode_block (h : decode c .block bs = .ok (i, rest)) : EncodesThenRest c .block bs i rest := by
  match bs with
  | [] => cases h
  | b :: bs =>
    by_cases hb : b = c.escape
    case neg =>
      rw [decode_block_literal hb] at h
      cases h
      exact ⟨wf_literal.2 hb, rfl, rfl⟩
    subst hb
    match bs with
    | [] => simp [decode, decodeItemFrom, itemByte] at h
    | x :: bs =>
      rw [decode_block_escape rfl] at h
      cases h
      exact encodes_escapedItem c x rest

end Sys2Proof.Machine
end

section
/-! PROOF. The two statements on decoder and encoder. -/

namespace Sys2Proof.Machine

/-- Settles O1: a line by `decode_encode_line`; what is no line by its own few bytes. -/
theorem decodeEncodeRoundTrip : Obligations.DecodeEncodeRoundTrip := by
  unfold Obligations.DecodeEncodeRoundTrip
  intro c i rest hc hi
  cases hb : bodyOf i with
  | some body => exact decode_encode_line hb hi
  | none =>
    obtain ⟨hesc, hend, hchk, hstart⟩ := escapedItem_markers hc
    cases i with
    | blk => exact decode_encode_blk hc
    | escStart => exact decode_block_escape hstart
    | escEsc => exact decode_block_escape hesc
    | escEnd => exact decode_block_escape hend
    | escChk => exact decode_block_escape hchk
    | escOther x =>
      obtain ⟨h1, h2, h3, h4⟩ := wf_escOther.1 hi
      exact decode_block_escape (escapedItem_other h1 h2 h3 h4)
    | literal x => exact decode_block_literal (wf_literal.1 hi)
    | syntaxError bad =>
      cases bad with
      | line _ => cases hb
      | oversized body b => exact decode_encode_oversized hc hi
    | resync bad =>
      cases bad with
      | first b => exact decode_command_first (wf_resync_first.1 hi)
      | second b => exact decode_command_second (wf_resync_second.1 hi)
    | _ => cases hb

/-- Settles O2: a line by `encodes_of_decodeFrom_body`, an item by its one or two bytes. -/
theorem encodeDecodeExact : Obligations.EncodeDecodeExact := by
  unfold Obligations.EncodeDecodeExact
  intro c ctx bs rest i _ h
  cases ctx with
  | command => exact encodes_of_decode_command h
  | block => exact encodes_of_decode_block h

end Sys2Proof.Machine
end

section
/-! PROOF. Words of the opcode table, and the status byte (R129, R309). -/

namespace Sys2Proof.Machine

/-- Settles O3: eleven closed words, decoded. -/
theorem tableWordsDecode : Obligations.TableWordsDecode := by
  unfold Obligations.TableWordsDecode
  decide

theorem getElem_bitAt (v : Bool) (k : Nat) {j : Nat} (hj : j < 8) : (bitAt v k)[j] = (v && decide (j = k)) := by
  cases v with
  | false => simp [bitAt]
  | true => simp [bitAt, ← BitVec.twoPow_eq, eq_comm]

/-- Settles O44: a bit of the disjunction is the bit of its one line that stands there (`getElem_bitAt`). -/
theorem statusByteLayout : Obligations.StatusByteLayout := by
  unfold Obligations.StatusByteLayout
  intro s
  simp [State.statusByte, getElem_bitAt]

end Sys2Proof.Machine
end

section
/-! PROOF. Framing violations in a block that is being sent (R126, R146, R193, R326). -/

namespace Sys2Proof.Machine

/-- A byte that `DecStep` calls a violation ends the block: `FrameError` is stamped, `Finish` replies `NAK` without a
bus reset, and `Cleanup` has nothing to drain. -/
theorem run_violation (s : State) (b : Byte) (ts : List Turn) (hp : s.pos = .item) (hs : s.canSend = true)
    (hsched : s.sched = quietTurns 4 ++ ts)
    (hv : decStep s.cfg .sawEscape s.xfer.seenFirst b = (.normal, s.xfer.seenFirst, .violation)) :
    (decodeByte .sawEscape b s).run =
      ({ s with xfer := { s.xfer with codec := .normal, blockDone := true } }.sent [s.cfg.nak]).ended ts := by
  have hmode : s.decMode = .live := by simp [State.decMode, hp]
  have hstart : decodeByte .sawEscape b s =
      (({ s with xfer := { s.xfer with codec := .normal, blockDone := true } }.stamp (some .frameError)).goto
        (.put [s.cfg.nak] .cleanup)) := by
    simp only [decodeByte, hv, hmode]
    rfl
  rw [hstart, run_eq, State.goto_sched, State.stamp_sched, hsched]
  exact runTurns_reply _ [s.cfg.nak] ts rfl (by simp) hs (.inr rfl)

/-- Settles O52: each of the three is a violation by its row of R141, and `run_violation`. -/
theorem violationsComplete : Obligations.ViolationsComplete := by
  unfold Obligations.ViolationsComplete
  intro s x ts hc hp hs hsched
  obtain ⟨hse, -, -, hsend, hsc, -, -, -⟩ := Cfg.ok_markers hc
  refine ⟨?_, fun h1 h2 h3 _ => ?_, fun hseen => ?_⟩
  · exact congrArg _ (run_violation s _ ts hp hs hsched (decStep_escape_other _ hse hsend hsc))
  · exact congrArg _ (run_violation s x ts hp hs hsched (decStep_escape_other _ h1 h2 h3))
  · refine congrArg _ (run_violation s _ ts hp hs hsched ?_)
    rw [decStep_escape_checkpoint hc, hseen, if_neg Bool.false_ne_true]

end Sys2Proof.Machine
end

section
/-! PROOF. The framing codec's table and round trip (R141, R148, R153, R155, R156). -/

namespace Sys2Proof.Machine

variable {c : Cfg} {st st' : CodecState} {seen seen' : Bool} {b x : Byte} {bs : List Byte}

/-! ## `DecodeAll` by the token of its first byte (R148) -/

theorem decodeAllFrom_more (h : decStep c st seen b = (st', seen', .more)) :
    decodeAllFrom c st seen (b :: bs) = decodeAllFrom c st' seen' bs := by
  simp [decodeAllFrom, h]

theorem decodeAllFrom_checkpoint (h : decStep c st seen b = (st', seen', .checkpoint)) :
    decodeAllFrom c st seen (b :: bs) = decodeAllFrom c st' seen' bs := by
  simp [decodeAllFrom, h]

theorem decodeAllFrom_data (h : decStep c st seen b = (st', seen', .data x)) :
    decodeAllFrom c st seen (b :: bs) = (decodeAllFrom c st' seen' bs).cons x := by
  simp [decodeAllFrom, h]

theorem decodeAllFrom_finish (h : decStep c st seen b = (st', seen', .finish)) :
    decodeAllFrom c st seen (b :: bs) = .ok [] bs := by
  simp [decodeAllFrom, h]

theorem decodeAllFrom_violation (h : decStep c st seen b = (st', seen', .violation)) :
    decodeAllFrom c st seen (b :: bs) = .frameError [] bs := by
  simp [decodeAllFrom, h]

/-! ## Decoding what was encoded -/

/-- The one or two bytes of `EncPut(b)` decode to `b` (R141 rows 1 to 3, R151). -/
theorem decodeAllFrom_encPut (c : Cfg) (seen : Bool) (b : Byte) (bs : List Byte) :
    decodeAllFrom c .normal seen (encPut c b ++ bs) = (decodeAllFrom c .normal true bs).cons b := by
  by_cases hb : b = c.escape
  case pos =>
    rw [hb, encPut_escape]
    exact (decodeAllFrom_more (decStep_normal_escape c seen)).trans (decodeAllFrom_data (decStep_escape_escape c seen))
  case neg =>
    rw [encPut_other hb]
    exact decodeAllFrom_data (decStep_normal_data seen hb)

theorem decodeAllFrom_encEnd (hc : c.ok = true) (seen : Bool) (bs : List Byte) :
    decodeAllFrom c .normal seen (encEnd c ++ bs) = .ok [] bs :=
  (decodeAllFrom_more (decStep_normal_escape c seen)).trans (decodeAllFrom_finish (decStep_escape_end hc seen))

/-- By the payload's bytes: each is put in front (`decodeAllFrom_encPut`), and the end marker ends. -/
theorem decodeAllFrom_encPayload (hc : c.ok = true) (p bs : List Byte) (seen : Bool) :
    decodeAllFrom c .normal seen (encPayload c p ++ encEnd c ++ bs) = .ok p bs := by
  induction p generalizing seen with
  | nil => exact decodeAllFrom_encEnd hc seen bs
  | cons b p ih =>
    rw [encPayload_cons, List.append_assoc, List.append_assoc, decodeAllFrom_encPut, ← List.append_assoc, ih,
      BlockResult.cons]

theorem encodeBlock_drop_two (c : Cfg) (p : List Byte) : (encodeBlock c p).drop 2 = encPayload c p ++ encEnd c := rfl

/-- Settles O7: the start marker dropped, by `decodeAllFrom_encPayload`. -/
theorem codecRoundTrip : Obligations.CodecRoundTrip := by
  unfold Obligations.CodecRoundTrip
  intro c p rest hc
  rw [encodeBlock_drop_two]
  exact decodeAllFrom_encPayload hc p rest false

/-- Settles O6: the rows are the model's lemmas on `DecStep`. -/
theorem decStepTable : Obligations.DecStepTable := by
  unfold Obligations.DecStepTable
  intro c seen hc
  exact ⟨decStep_normal_escape c seen, fun _ => decStep_normal_data seen, decStep_escape_escape c seen,
    decStep_escape_end hc seen, decStep_escape_checkpoint hc true, decStep_escape_checkpoint hc false,
    fun _ => decStep_escape_other seen⟩

/-! ## Lengths (R156) -/

/-- Each payload byte takes one byte, an `ESCAPE` one more. -/
theorem length_encPayload (c : Cfg) (p : List Byte) : (encPayload c p).length = p.length + p.count c.escape := by
  induction p with
  | nil => rfl
  | cons b p ih =>
    rw [encPayload_cons, List.length_append, ih, List.length_cons]
    by_cases hb : b = c.escape
    case pos => rw [hb, encPut_escape, List.count_cons_self, List.length_cons, List.length_singleton]; omega
    case neg => rw [encPut_other hb, List.count_cons_of_ne hb, List.length_singleton]; omega

/-- Settles O8: the two markers around `length_encPayload`. -/
theorem encodedLength : Obligations.EncodedLength := by
  unfold Obligations.EncodedLength
  refine ⟨fun c p => ?_, rfl⟩
  simp only [encodeBlock, encStart, encEnd, List.length_append, length_encPayload, List.length_cons, List.length_nil]
  omega

end Sys2Proof.Machine
end

section
/-! PROOF. No proper initial part of an encoded block ends it (R158). A decoder that has ended or failed on some bytes does
the same on those bytes with more behind them, and only leaves more; a part that ended would therefore end the whole
block too early, against the round trip. -/

namespace Sys2Proof.Machine

/-- The result with more bytes behind what it left; an incomplete one left nothing. -/
def BlockResult.leaving (more : List Byte) : BlockResult → BlockResult
  | .ok p rest => .ok p (rest ++ more)
  | .frameError p rest => .frameError p (rest ++ more)
  | .incomplete p => .incomplete p

/-- The bytes ended before the block did. -/
def BlockResult.isIncomplete : BlockResult → Bool
  | .incomplete _ => true
  | .ok _ _ | .frameError _ _ => false

theorem BlockResult.cons_leaving (b : Byte) (more : List Byte) (r : BlockResult) :
    (r.leaving more).cons b = (r.cons b).leaving more := by
  cases r <;> rfl

theorem BlockResult.isIncomplete_cons (b : Byte) (r : BlockResult) : (r.cons b).isIncomplete = r.isIncomplete := by
  cases r <;> rfl

/-- A decoding that is not incomplete stays what it is when more bytes follow. -/
theorem decodeAllFrom_append (c : Cfg) (st : CodecState) (seen : Bool) (bs more : List Byte)
    (h : (decodeAllFrom c st seen bs).isIncomplete = false) :
    decodeAllFrom c st seen (bs ++ more) = (decodeAllFrom c st seen bs).leaving more := by
  induction bs generalizing st seen with
  | nil => cases h
  | cons b bs ih =>
    rw [List.cons_append]
    obtain ⟨st', seen', t, hstep⟩ : ∃ st' seen' t, decStep c st seen b = (st', seen', t) := ⟨_, _, _, rfl⟩
    cases t with
    | more =>
      rw [decodeAllFrom_more hstep] at h ⊢
      rw [decodeAllFrom_more hstep, ih _ _ h]
    | checkpoint =>
      rw [decodeAllFrom_checkpoint hstep] at h ⊢
      rw [decodeAllFrom_checkpoint hstep, ih _ _ h]
    | data x =>
      rw [decodeAllFrom_data hstep] at h ⊢
      rw [BlockResult.isIncomplete_cons] at h
      rw [decodeAllFrom_data hstep, ih _ _ h, BlockResult.cons_leaving]
    | finish => rw [decodeAllFrom_finish hstep, decodeAllFrom_finish hstep, BlockResult.leaving]
    | violation => rw [decodeAllFrom_violation hstep, decodeAllFrom_violation hstep, BlockResult.leaving]

/-- Bytes that decode to a payload with nothing left have no proper initial part that ends the block. -/
theorem decodeAll_take_incomplete {c : Cfg} {bs p : List Byte} {n : Nat} (h : decodeAll c bs = .ok p [])
    (hn : n < bs.length) : ∃ q, decodeAll c (bs.take n) = .incomplete q := by
  have hext := decodeAllFrom_append c .normal false (bs.take n) (bs.drop n)
  rw [List.take_append_drop] at hext
  unfold decodeAll at h ⊢
  rw [h] at hext
  cases hr : decodeAllFrom c .normal false (bs.take n) with
  | incomplete q => exact ⟨q, rfl⟩
  | frameError q rest =>
    rw [hr] at hext
    cases hext rfl
  | ok q rest =>
    rw [hr] at hext
    have hrest : rest ++ bs.drop n = [] := by
      have heq := hext rfl
      simp only [BlockResult.leaving, BlockResult.ok.injEq] at heq
      exact heq.2.symm
    have hdrop := List.drop_eq_nil_iff.1 (List.append_eq_nil_iff.1 hrest).2
    omega

/-- Settles O9: by `decodeAll_take_incomplete` and the round trip; the example computes. -/
theorem noFalseEnd : Obligations.NoFalseEnd := by
  unfold Obligations.NoFalseEnd
  refine ⟨fun c p n hc hn => ?_, rfl, rfl⟩
  refine decodeAll_take_incomplete (p := p) ?_ (by rwa [List.length_drop])
  have hround := codecRoundTrip c p [] hc
  rwa [List.append_nil] at hround

end Sys2Proof.Machine
end

section
/-! PROOF. The fetch of one item of a block through its quiet turns (R125, R143, R266). The resume that the first byte
brings (R342) is done once: the second byte finds none pending. -/

namespace Sys2Proof.Machine

variable {s s' : State} {i : Instr} {b : Byte} {rest : List Byte}

/-! ## The state after a byte has been taken (R73, R342) -/

/-- `HostGet` has taken a byte and left `rest` in the RX queue. -/
def State.took (s : State) (rest : List Byte) : State := { s.resumed with rx := rest }

theorem State.took_cfg (s : State) (rest : List Byte) : (s.took rest).cfg = s.cfg := s.resumed_cfg

theorem State.took_xfer (s : State) (rest : List Byte) : (s.took rest).xfer = s.xfer := by
  obtain h | h := resumed_eq s <;> rw [State.took, h]

theorem State.took_pos (s : State) (rest : List Byte) : (s.took rest).pos = s.pos := by
  obtain h | h := resumed_eq s <;> rw [State.took, h]

theorem State.took_suspended (s : State) (rest : List Byte) :
    (s.took rest).abt.suspended = s.abt.suspended := by
  obtain h | h := resumed_eq s <;> rw [State.took, h]

/-- Of two bytes taken one after the other only the first resumes; what is written in between of the transfer context
makes no difference to that. -/
theorem State.took_setXfer_took (s : State) (rest rest' : List Byte) (f : Transfer → Transfer) :
    ((s.took rest).setXfer f).took rest' = (s.took rest').setXfer f := by
  cases h : s.abt.resumePending <;> simp [State.took, State.resumed, State.setXfer, h]

theorem hostGet_took (hs : s.abt.suspended = false) (hr : s.rx = b :: rest) : hostGet s = .byte b (s.took rest) := by
  rw [hostGet_byte hs hr]
  cases h : s.abt.resumePending <;> simp [State.took, State.resumed, h]

/-! ## Quiet turns of a fetch, and the step they make -/

theorem fetchTurns_quiet_more (ts : List Turn) (h : fetchPoll s = .more s') :
    fetchTurns ([] :: ts) s = fetchTurns ts s' := by
  simp [fetchTurns, turn_nil, h]

theorem fetchTurns_quiet_instr (ts : List Turn) (h : fetchPoll s = .instr i s') :
    fetchTurns ([] :: ts) s = .instr i { s' with sched := ts } := by
  simp [fetchTurns, turn_nil, h]

theorem step_fetched (hf : s.pos.isFetch = true) (hr : s.pos.isReady = false)
    (h : fetchTurns s.sched s = .instr i s') : step s = exec i s' := by
  unfold step
  split
  next j hp =>
    rw [hp] at hr
    cases hr
  next => rw [if_pos hf, h]

/-! ## One poll inside a block -/

theorem fetchPoll_byte (hs : s.abt.suspended = false) (hr : s.rx = b :: rest) :
    fetchPoll s = fetchByte b (s.took rest) := by
  simp only [fetchPoll, hostGet_took hs hr]

theorem fetchPoll_item (hp : s.pos = .item ∨ s.pos = .drain) (hs : s.abt.suspended = false) (hr : s.rx = b :: rest)
    (h : itemByte s.cfg s.xfer.codec b = some i) : fetchPoll s = .instr i (s.took rest) := by
  rw [fetchPoll_byte hs hr]
  simp only [fetchByte, State.took_pos, State.took_cfg, State.took_xfer, if_pos hp, h]

theorem fetchPoll_escape (hp : s.pos = .item ∨ s.pos = .drain) (hs : s.abt.suspended = false) (hr : s.rx = b :: rest)
    (h : itemByte s.cfg s.xfer.codec b = none) :
    fetchPoll s = .more ((s.took rest).setXfer fun x => { x with codec := .sawEscape }) := by
  rw [fetchPoll_byte hs hr]
  simp only [fetchByte, State.took_pos, State.took_cfg, State.took_xfer, if_pos hp, h]

/-! ## The whole item -/

theorem decodeItemFrom_item {c : Cfg} {st : CodecState} {bs : List Byte} (h : itemByte c st b = some i) :
    decodeItemFrom c st (b :: bs) = .ok (i, bs) := by
  simp [decodeItemFrom, h]

theorem decodeItemFrom_more {c : Cfg} {st : CodecState} {bs : List Byte} (h : itemByte c st b = none) :
    decodeItemFrom c st (b :: bs) = decodeItemFrom c .sawEscape bs := by
  simp [decodeItemFrom, h]

/-- The bytes of an item: one that completes it, or one that does not and the byte after it (R125). -/
theorem decodeItemFrom_cases {c : Cfg} {st : CodecState} {bs : List Byte}
    (h : decodeItemFrom c st bs = .ok (i, rest)) :
    (∃ b, bs = b :: rest ∧ itemByte c st b = some i)
    ∨ ∃ b x, bs = b :: x :: rest ∧ itemByte c st b = none ∧ itemByte c .sawEscape x = some i := by
  match bs with
  | [] => cases h
  | b :: bs =>
    cases hb : itemByte c st b with
    | some j =>
      rw [decodeItemFrom_item hb] at h
      cases h
      exact .inl ⟨b, rfl, hb⟩
    | none =>
      rw [decodeItemFrom_more hb] at h
      match bs with
      | [] => cases h
      | x :: bs =>
        rw [decodeItemFrom_item rfl] at h
        cases h
        exact .inr ⟨b, x, rfl, hb, rfl⟩

/-- Settles O27: one poll for an item of one byte, two for an item of two (`decodeItemFrom_cases`). -/
theorem stepRunsDecodedItem : Obligations.StepRunsDecodedItem := by
  unfold Obligations.StepRunsDecodedItem
  intro s i rest ts hp hs hdec hsched
  have hf : s.pos.isFetch = true := by obtain h | h := hp <;> rw [h] <;> rfl
  have hr : s.pos.isReady = false := by obtain h | h := hp <;> rw [h] <;> rfl
  refine step_fetched hf hr ?_
  obtain ⟨b, hrx, hb⟩ | ⟨b, x, hrx, hb, hx⟩ := decodeItemFrom_cases hdec
  case inl =>
    have hlen : s.rx.length = rest.length + 1 := by rw [hrx]; rfl
    have hturns : s.sched = [] :: ts := by rw [hsched, hlen, Nat.add_sub_cancel_left]; rfl
    rw [hturns, fetchTurns_quiet_instr ts (fetchPoll_item hp hs hrx hb), if_neg (by omega), ← s.took_xfer rest]
    rfl
  case inr =>
    have hlen : s.rx.length = rest.length + 2 := by rw [hrx]; rfl
    have hturns : s.sched = [] :: [] :: ts := by rw [hsched, hlen, Nat.add_sub_cancel_left]; rfl
    have hsecond : fetchPoll ((s.took (x :: rest)).setXfer fun y => { y with codec := .sawEscape }) =
        .instr i ((s.took rest).setXfer fun y => { y with codec := .sawEscape }) := by
      rw [← s.took_setXfer_took (x :: rest) rest]
      refine fetchPoll_item ?_ ?_ rfl ?_
      · rwa [State.setXfer_pos, State.took_pos]
      · rwa [State.setXfer_abt, State.took_suspended]
      · rwa [State.setXfer_cfg, State.took_cfg]
    rw [hturns, fetchTurns_quiet_more _ (fetchPoll_escape hp hs hrx hb), fetchTurns_quiet_instr ts hsecond,
      if_pos hlen, ← s.took_xfer rest]
    rfl

end Sys2Proof.Machine
end

section
/-! PROOF. One byte through the source handshake to a listener that waits for it and accepts it (R180): S1 to S5 in
five quiet turns, any number of polls at S6, S6 to S8 after the listener has released NDAC. -/

namespace Sys2Proof.Machine

variable {s : State} {i : Inputs}

/-! ## Polls that stay -/

/-- What a foreground step leaves as it is, any number of quiet turns do. -/
theorem runTurns_stays (h : fg s = s) (hp : s.pos.isFetch = false) (n : Nat) (ts : List Turn) :
    runTurns (quietTurns n ++ ts) s = runTurns ts s := by
  induction n with
  | zero => rfl
  | succ n ih => rw [quietTurns_succ, List.cons_append, runTurns_quiet _ _ hp, h, ih]

/-! ## A listener that waits -/

/-- CORE drives neither acceptor line; a listener is ready for a byte and has accepted none. -/
structure ListenerWaits (s : State) : Prop where
  nrfdOut : s.out.nrfd = false
  ndacOut : s.out.ndac = false
  nrfd : s.inp.lines.nrfd = false
  ndac : s.inp.lines.ndac = true

theorem ListenerWaits.nrfdIn (h : ListenerWaits s) : s.nrfdIn = false := by
  simp [State.nrfdIn, Inputs.senseLine, h.nrfdOut, h.nrfd]

theorem ListenerWaits.ndacIn (h : ListenerWaits s) : s.ndacIn = true := by
  simp [State.ndacIn, Inputs.senseLine, h.ndac]

/-- A talker drives neither acceptor line (R177). -/
theorem ListenerWaits.of_talker (hr : s.sess.role = .talker) (hl : s.linesFitRole = true)
    (hnrfd : s.inp.lines.nrfd = false) (hndac : s.inp.lines.ndac = true) : ListenerWaits s := by
  simp only [State.linesFitRole, hr, Bool.and_eq_true, Bool.not_eq_true'] at hl
  exact ⟨hl.1.1, hl.1.2, hnrfd, hndac⟩

/-! ## The steps of `SrcHandshake`, where its waits end well -/

variable {b : Byte} {eoi : Bool} {k : SrcReturn}

theorem fg_src_s2 (h : s.ndacIn = true) : fg (s.goto (.src .s2 b eoi k)) = s.goto (.src .s3 b eoi k) := by
  have hw : wait (s.nrfdIn || s.ndacIn) .noListener false (s.goto (.src .s2 b eoi k)) =
      some (.ok, s.goto (.src .s2 b eoi k)) := by simp [wait, h]
  exact congrArg (polling · _ _) hw

theorem fg_src_s3 (h : s.nrfdIn = false) : fg (s.goto (.src .s3 b eoi k)) = s.goto (.src .s4 b eoi k) := by
  have hw : wait (!s.nrfdIn) .notReady false (s.goto (.src .s3 b eoi k)) =
      some (.ok, s.goto (.src .s3 b eoi k)) := by simp [wait, h]
  exact congrArg (polling · _ _) hw

theorem fg_src_s4 : fg (s.goto (.src .s4 b eoi k)) =
    (s.drive fun o => { o with eoi := eoi || o.eoi }).goto (.src .s5 b eoi k) := by
  cases eoi <;> rfl

theorem fg_src_s6 (h : s.ndacIn = false) : fg (s.goto (.src .s6 b eoi k)) = s.goto (.src .s7 b eoi k) := by
  have hw : wait (!s.ndacIn) .notAccepted false (s.goto (.src .s6 b eoi k)) =
      some (.ok, s.goto (.src .s6 b eoi k)) := by simp [wait, h]
  exact congrArg (polling · _ _) hw

theorem fg_src_s6_polls (h : s.ndacIn = true) (ht : s.abt.timedOut = false) (hs : s.abt.suspended = false) :
    fg (s.goto (.src .s6 b eoi k)) = s.goto (.src .s6 b eoi k) := by
  have hw : wait (!s.ndacIn) .notAccepted false (s.goto (.src .s6 b eoi k)) = none := by simp [wait, h, ht, hs]
  exact congrArg (polling · _ _) hw

/-! ## The handshake in turns -/

/-- `b` stands on the data lines with data-valid asserted, and EOI with it if asked for. -/
def State.offered (s : State) (b : Byte) (eoi : Bool) : State :=
  { s with out := { s.out.sourced b with dav := true, eoi := eoi || s.out.eoi } }

/-- The listener has accepted `b`: data-valid and EOI are released, the per-byte timer restarts (R180, R225). -/
def State.delivered (s : State) (b : Byte) (i : Inputs) : State :=
  { s with
    out := s.out.sourced b
    tmo := { s.tmo with byteCtr := 0#16, useFirst := false }
    inp := i }

/-- S1 to S5. -/
theorem runTurns_offer (h : ListenerWaits s) (ts : List Turn) :
    runTurns (quietTurns 5 ++ ts) (s.goto (.src .s1 b eoi k)) =
      runTurns ts ((s.offered b eoi).goto (.src .s6 b eoi k)) := by
  have h1 : fg (s.goto (.src .s1 b eoi k)) =
      (s.drive fun o => { o with dio := b, dioOe := true }).goto (.src .s2 b eoi k) := rfl
  have hw : ListenerWaits (s.drive fun o => { o with dio := b, dioOe := true }) :=
    ⟨h.nrfdOut, h.ndacOut, h.nrfd, h.ndac⟩
  have h5 (u : State) : fg (u.goto (.src .s5 b eoi k)) =
      (u.drive fun o => { o with dav := true }).goto (.src .s6 b eoi k) := rfl
  show runTurns ([] :: [] :: [] :: [] :: [] :: ts) _ = _
  rw [runTurns_quiet _ _ rfl, h1, runTurns_quiet _ _ rfl, fg_src_s2 hw.ndacIn, runTurns_quiet _ _ rfl,
    fg_src_s3 hw.nrfdIn, runTurns_quiet _ _ rfl, fg_src_s4, runTurns_quiet _ _ rfl, h5]
  simp [State.offered, BusOut.sourced, State.drive, h.nrfdOut, h.ndacOut]

/-- S6 to S8, once the listener has released NDAC. -/
theorem runTurns_accept (hi : i.lines.ndac = false) (ts : List Turn) :
    runTurns ([.inputs i] :: (quietTurns 2 ++ ts)) ((s.offered b eoi).goto (.src .s6 b eoi k)) =
      runTurns ts (srcReturned k ((s.delivered b i).goto (.src .s8 b eoi k))) := by
  have hin : State.ndacIn { s.offered b eoi with inp := i } = false := by
    simp [State.ndacIn, Inputs.senseLine, State.offered, BusOut.sourced, hi]
  have h6 : fg (((s.offered b eoi).goto (.src .s6 b eoi k)).turn [.inputs i]) =
      State.goto { s.offered b eoi with inp := i } (.src .s7 b eoi k) := fg_src_s6 hin
  rw [runTurns_cons _ _ _ rfl rfl, h6]
  show runTurns ([] :: [] :: ts) _ = _
  rw [runTurns_quiet _ _ rfl, runTurns_quiet _ _ rfl]
  rfl

/-- The whole handshake, the listener accepting after `n` further polls at S6. -/
theorem runTurns_srcHandshake (h : ListenerWaits s) (ht : s.abt.timedOut = false) (hs : s.abt.suspended = false)
    (hi : i.lines.ndac = false) (n : Nat) (ts : List Turn) :
    runTurns (quietTurns (5 + n) ++ [.inputs i] :: (quietTurns 2 ++ ts)) (s.goto (.src .s1 b eoi k)) =
      runTurns ts (srcReturned k ((s.delivered b i).goto (.src .s8 b eoi k))) := by
  have hpolls : State.ndacIn (s.offered b eoi) = true := by
    simp [State.ndacIn, Inputs.senseLine, State.offered, h.ndac]
  rw [quietTurns_add, List.append_assoc, runTurns_offer h, runTurns_stays (fg_src_s6_polls hpolls ht hs) rfl,
    runTurns_accept hi]

end Sys2Proof.Machine
end

section
/-! PROOF. Payload bytes of a block that is being sent (R141, R143, R190, R191): each sends the byte held before it, without
EOI, and is held itself. -/

namespace Sys2Proof.Machine

variable {s : State} {st : CodecState} {b x : Byte} {i : Inputs}

/-! ## What the items of a block are -/

theorem exec_literal (x : Byte) (s : State) : exec (.literal x) s = .next (decodeByte .normal x s).run := rfl

theorem exec_escEsc (s : State) : exec .escEsc s = .next (decodeByte .sawEscape s.cfg.escape s).run := rfl

theorem exec_escEnd (s : State) : exec .escEnd s = .next (decodeByte .sawEscape s.cfg.blockEnd s).run := rfl

theorem exec_escChk (s : State) : exec .escChk s = .next (decodeByte .sawEscape s.cfg.checkpoint s).run := rfl

theorem decMode_item (hp : s.pos = .item) : s.decMode = .live := by
  simp [State.decMode, hp]

theorem role_item (hp : s.pos = .item) (h : s.roleFits = true) : s.sess.role = .talker := by
  have hrole : s.pos.role = some .talker := by rw [hp]; rfl
  simpa [State.roleFits, hrole] using h

/-! ## Payload bytes -/

/-- A payload byte has been decoded (R141 rows 2 and 3). -/
def State.afterPayload (s : State) : State := s.setXfer fun x => { x with codec := .normal, seenFirst := true }

theorem State.afterPayload_sched (s : State) : s.afterPayload.sched = s.sched := rfl

theorem ListenerWaits.setXfer (h : ListenerWaits s) (f : Transfer → Transfer) : ListenerWaits (s.setXfer f) :=
  ⟨h.nrfdOut, h.ndacOut, h.nrfd, h.ndac⟩

theorem ListenerWaits.afterPayload (h : ListenerWaits s) : ListenerWaits s.afterPayload := h.setXfer _

/-- The next item is awaited with `x` held (R190 B3). -/
def State.holding (s : State) (x : Byte) : State :=
  (s.setXfer fun t => { t with holdByte := x, holdValid := true }).goto .item

/-- B3 is one step, and the next item is awaited. -/
theorem runTurns_b3 (s : State) (x : Byte) (ts : List Turn) :
    runTurns ([] :: ts) (s.goto (.b3 x)) = { s.holding x with sched := ts } := by
  rw [runTurns_quiet _ _ rfl, ← runTurns_fetch ts (s.holding x) rfl]
  rfl

section
variable (hp : s.pos = .item) (hd : decStep s.cfg st s.xfer.seenFirst b = (.normal, true, .data x))
include hp hd

theorem decodeByte_data : decodeByte st b s = sendBlockB2 x s.afterPayload := by
  simp only [decodeByte, hd, decMode_item hp]
  rfl

/-- With nothing held the byte is held at once (R190 B2). -/
theorem decodeByte_data_first (hv : s.xfer.holdValid = false) : decodeByte st b s = s.afterPayload.goto (.b3 x) := by
  rw [decodeByte_data hp hd]
  simp [sendBlockB2, State.afterPayload, hv]

/-- The held byte goes out first, without EOI (R190 B2). -/
theorem decodeByte_data_next (hv : s.xfer.holdValid = true) :
    decodeByte st b s = s.afterPayload.goto (.src .s1 s.xfer.holdByte false (.data x)) := by
  rw [decodeByte_data hp hd]
  simp [sendBlockB2, State.afterPayload, hv]

theorem run_payload_first (hv : s.xfer.holdValid = false) {ts : List Turn} (hsched : s.sched = [] :: ts) :
    (decodeByte st b s).run = { s.afterPayload.holding x with sched := ts } := by
  rw [decodeByte_data_first hp hd hv, run_eq, State.goto_sched, State.afterPayload_sched, hsched, runTurns_b3]

theorem run_payload_offered (hv : s.xfer.holdValid = true) (hw : ListenerWaits s) (hsched : s.sched = quietTurns 5) :
    (decodeByte st b s).run.out = (s.offered s.xfer.holdByte false).out := by
  rw [decodeByte_data_next hp hd hv, run_eq, State.goto_sched, State.afterPayload_sched, hsched,
    ← List.append_nil (quietTurns 5), runTurns_offer hw.afterPayload]
  rfl

theorem run_payload_next (hv : s.xfer.holdValid = true) (hw : ListenerWaits s) (ht : s.abt.timedOut = false)
    (hs : s.abt.suspended = false) (hi : i.lines.ndac = false) {n : Nat} {ts : List Turn}
    (hsched : s.sched = quietTurns (5 + n) ++ [.inputs i] :: (quietTurns 3 ++ ts)) :
    (decodeByte st b s).run = { (s.afterPayload.delivered s.xfer.holdByte i).holding x with sched := ts } := by
  have hturns : quietTurns 3 ++ ts = quietTurns 2 ++ [] :: ts := rfl
  rw [decodeByte_data_next hp hd hv, run_eq, State.goto_sched, State.afterPayload_sched, hsched, hturns,
    runTurns_srcHandshake hw.afterPayload ht hs hi]
  exact runTurns_b3 _ x ts

end

/-- Settles O49: a literal and a doubled `ESCAPE` are each a payload byte by its row of R141; the three parts are what
a payload byte does with nothing held, in the middle of the held byte's handshake, and after it. -/
theorem payloadItemsComplete : Obligations.PayloadItemsComplete := by
  unfold Obligations.PayloadItemsComplete
  intro s x i n ts hp ht hs hrole hlines hx
  have htalker := role_item hp hrole
  have hlit := decStep_normal_data s.xfer.seenFirst hx
  have hesc := decStep_escape_escape s.cfg s.xfer.seenFirst
  rw [exec_literal, exec_escEsc]
  refine ⟨fun hv hsched => ?_, fun hv hnrfd hndac heoi hsched => ?_, fun hv hnrfd hndac hi hsched => ?_⟩
  · rw [run_payload_first hp hlit hv hsched, run_payload_first hp hesc hv hsched]
    simp [State.holding, State.afterPayload, State.goto, State.setXfer, hp]
  · have hw := ListenerWaits.of_talker htalker hlines hnrfd hndac
    have hout : (s.offered s.xfer.holdByte false).out =
        { s.out.sourced s.xfer.holdByte with dav := true, eoi := false } := by
      simp [State.offered, heoi]
    exact ⟨⟨_, rfl, (run_payload_offered hp hlit hv hw hsched).trans hout⟩,
      ⟨_, rfl, (run_payload_offered hp hesc hv hw hsched).trans hout⟩⟩
  · have hw := ListenerWaits.of_talker htalker hlines hnrfd hndac
    rw [run_payload_next hp hlit hv hw ht hs hi hsched, run_payload_next hp hesc hv hw ht hs hi hsched]
    simp [State.holding, State.afterPayload, State.delivered, State.goto, State.setXfer, hp, hv]

end Sys2Proof.Machine
end

section
/-! PROOF. The end of a block that is being sent, and a checkpoint in it (R144, R145, R190 B4, R192): the end marker sends
the held byte as the last, a checkpoint only its acknowledgment. -/

namespace Sys2Proof.Machine

variable {s : State} {i : Inputs}

/-! ## The end of a block -/

/-- The end marker has been decoded (R144). -/
def State.afterEnd (s : State) : State := s.setXfer fun x => { x with codec := .normal, blockDone := true }

theorem State.afterEnd_sched (s : State) : s.afterEnd.sched = s.sched := rfl

theorem ListenerWaits.afterEnd (h : ListenerWaits s) : ListenerWaits s.afterEnd := h.setXfer _

/-- A block that is done and went well is acknowledged, and its command ends. -/
theorem runTurns_finish_ok (hs : s.canSend = true) (hb : s.xfer.blockDone = true) (ts : List Turn) :
    runTurns (quietTurns 4 ++ ts) (finish .ok s) = (s.sent [s.cfg.ack]).ended ts :=
  runTurns_reply (s.goto (.put [s.cfg.ack] .cleanup)) [s.cfg.ack] ts rfl (by simp) hs (.inr hb)

section
variable (hc : s.cfg.ok = true) (hp : s.pos = .item)
include hc hp

theorem decodeByte_end : decodeByte .sawEscape s.cfg.blockEnd s = sendBlockB4 s.afterEnd := by
  simp only [decodeByte, decStep_escape_end hc, decMode_item hp]
  rfl

/-- An empty block is done at once (R190 B4). -/
theorem decodeByte_end_empty (hv : s.xfer.holdValid = false) :
    decodeByte .sawEscape s.cfg.blockEnd s = finish .ok s.afterEnd := by
  rw [decodeByte_end hc hp]
  simp [sendBlockB4, State.afterEnd, hv]

/-- The held byte is the last, and goes out with EOI if the policy says so (R190 B4). -/
theorem decodeByte_end_held (hv : s.xfer.holdValid = true) : decodeByte .sawEscape s.cfg.blockEnd s =
    s.afterEnd.goto (.src .s1 s.xfer.holdByte s.xfer.eoiPolicy .last) := by
  rw [decodeByte_end hc hp]
  simp [sendBlockB4, State.afterEnd, hv]

theorem run_end_empty (hv : s.xfer.holdValid = false) (hs : s.canSend = true) {ts : List Turn}
    (hsched : s.sched = quietTurns 4 ++ ts) :
    (decodeByte .sawEscape s.cfg.blockEnd s).run = (s.afterEnd.sent [s.cfg.ack]).ended ts := by
  rw [decodeByte_end_empty hc hp hv, run_eq, finish_sched, State.afterEnd_sched, hsched]
  exact runTurns_finish_ok (s := s.afterEnd) hs rfl ts

theorem run_end_offered (hv : s.xfer.holdValid = true) (hw : ListenerWaits s) (hsched : s.sched = quietTurns 5) :
    (decodeByte .sawEscape s.cfg.blockEnd s).run.out = (s.offered s.xfer.holdByte s.xfer.eoiPolicy).out := by
  rw [decodeByte_end_held hc hp hv, run_eq, State.goto_sched, State.afterEnd_sched, hsched,
    ← List.append_nil (quietTurns 5), runTurns_offer hw.afterEnd]
  rfl

theorem run_end_held (hv : s.xfer.holdValid = true) (hw : ListenerWaits s) (ht : s.abt.timedOut = false)
    (hs : s.abt.suspended = false) (hi : i.lines.ndac = false) (hfull : i.txFull = false) {n : Nat} {ts : List Turn}
    (hsched : s.sched = quietTurns (5 + n) ++ [.inputs i] :: (quietTurns 6 ++ ts)) :
    (decodeByte .sawEscape s.cfg.blockEnd s).run =
      (((s.afterEnd.delivered s.xfer.holdByte i).setXfer fun x => { x with holdValid := false }).sent
        [s.cfg.ack]).ended ts := by
  have hturns : quietTurns 6 ++ ts = quietTurns 2 ++ (quietTurns 4 ++ ts) := rfl
  rw [decodeByte_end_held hc hp hv, run_eq, State.goto_sched, State.afterEnd_sched, hsched, hturns,
    runTurns_srcHandshake hw.afterEnd ht hs hi]
  refine runTurns_finish_ok ?_ rfl ts
  show (!s.abt.suspended && !i.txFull) = true
  rw [hs, hfull]
  rfl

end

/-- What the invariant says of the lines and of the EOI policy where an item is awaited. -/
theorem inv_item (h : s.inv = true) (hp : s.pos = .item) :
    s.sess.role = .talker ∧ s.linesFitRole = true ∧ s.out.eoi = false
    ∧ s.xfer.eoiPolicy = decide (s.sess.writeMode.toNat < 4) := by
  simp only [State.inv, Bool.and_eq_true, and_assoc] at h
  obtain ⟨-, -, hrole, hlines, hhand, -, -, -, -, -, -, -, -, -, heoi, -, -⟩ := h
  refine ⟨role_item hp hrole, hlines, ?_, ?_⟩
  · simp only [State.handshakeFits, hp, Pos.eoiMay, Bool.and_eq_true, Bool.or_false, Bool.not_eq_true'] at hhand
    exact hhand.1.2
  · simpa [State.eoiFits, hp, Pos.inSendLoop] using heoi

/-- Settles O50: the end marker by its row of R141; then the acknowledgment at once, or the held byte's handshake as far
as the turns go. -/
theorem blockEndCompletes : Obligations.BlockEndCompletes := by
  unfold Obligations.BlockEndCompletes
  intro s i n ts hc hp hs ht hinv
  obtain ⟨htalker, hlines, heoi, hpolicy⟩ := inv_item hinv hp
  have hsusp : s.abt.suspended = false := by
    simp only [State.canSend, Bool.and_eq_true, Bool.not_eq_true'] at hs
    exact hs.1
  rw [exec_escEnd]
  refine ⟨fun hv hsched => ?_, fun hv hnrfd hndac hsched => ?_, fun hv hnrfd hndac hi hfull hsched => ?_⟩
  · rw [run_end_empty hc hp hv hs hsched]
    rfl
  · have hw := ListenerWaits.of_talker htalker hlines hnrfd hndac
    refine ⟨_, rfl, (run_end_offered hc hp hv hw hsched).trans ?_⟩
    rw [State.offered, heoi, hpolicy, Bool.or_false]
  · have hw := ListenerWaits.of_talker htalker hlines hnrfd hndac
    rw [run_end_held hc hp hv hw ht hsusp hi hfull hsched]
    rfl

/-! ## A checkpoint -/

/-- One byte to the host channel in one turn, and the next item is awaited. -/
theorem runTurns_put_item (hs : s.canSend = true) (b : Byte) (ts : List Turn) :
    runTurns ([] :: ts) (s.goto (.put [b] .item)) = { (s.sent [b]).goto .item with sched := ts } := by
  rw [runTurns_quiet _ _ rfl, fg_put (s.goto (.put [b] .item)) b [] .item rfl hs, if_pos rfl]
  exact runTurns_fetch ts _ rfl

theorem decodeByte_checkpoint (hc : s.cfg.ok = true) (hp : s.pos = .item) (hseen : s.xfer.seenFirst = true) :
    decodeByte .sawEscape s.cfg.checkpoint s =
      (s.setXfer fun x => { x with codec := .normal }).goto (.put [s.cfg.checkpointAck] .item) := by
  simp only [decodeByte, decStep_escape_checkpoint hc, hseen, if_true, decMode_item hp]
  simp [onToken, State.setXfer, hseen]

/-- Settles O51: a checkpoint after a payload byte by its row of R141, then its one byte to the host. -/
theorem checkpointCompletes : Obligations.CheckpointCompletes := by
  unfold Obligations.CheckpointCompletes
  intro s ts hc hp hs hseen hsched
  rw [exec_escChk, decodeByte_checkpoint hc hp hseen, run_eq, State.goto_sched, State.setXfer_sched, hsched,
    runTurns_put_item (s := s.setXfer _) hs]
  simp [State.goto, State.setXfer, State.sent, hp]

end Sys2Proof.Machine
end

section
/-! PROOF. What a run keeps when only certain events fall in it: the inductions of `runTurns_keeps` and
`beginTurns_keeps` with the schedule restricted to the events of `E`. -/

namespace Sys2Proof.Machine

variable {E : Event → Prop} {P : State → Prop}

theorem turn_keepsIn (act : ∀ e s, E e → P s → P (e.act s)) {t : Turn} (ht : ∀ e ∈ t, E e) {s : State} (h : P s) :
    P (s.turn t) := by
  induction t generalizing s with
  | nil => exact h
  | cons e t ih =>
    exact ih (fun e' he' => ht e' (List.mem_cons_of_mem e he')) (act e s (ht e List.mem_cons_self) h)

theorem runTurns_keepsIn (act : ∀ e s, E e → P s → P (e.act s)) (step : ∀ s, P s → P (fg s))
    (sched : ∀ s ts, P s → P { s with sched := ts }) {ts : List Turn} (hts : EventsIn E ts) {s : State} (h : P s) :
    P (runTurns ts s) := by
  induction ts generalizing s with
  | nil => exact sched _ _ h
  | cons t ts ih =>
    have ht : P (s.turn t) := turn_keepsIn act (hts t List.mem_cons_self) h
    unfold runTurns
    split
    · exact sched _ _ h
    · split
      · exact sched _ _ ht
      · exact ih hts.tail (step _ ht)

theorem beginTurns_keepsIn (act : ∀ e s, E e → P s → P (e.act s)) (step : ∀ s, P s → P (fg s))
    (sched : ∀ s ts, P s → P { s with sched := ts }) {line : State → State}
    (first : ∀ s, s.pos.isReady = true → P s → P (line s)) {ts : List Turn} (hts : EventsIn E ts) {s : State}
    (h : P s) : P (beginTurns line ts s) := by
  induction ts generalizing s with
  | nil => exact sched _ _ h
  | cons t ts ih =>
    have ht : P (s.turn t) := turn_keepsIn act (hts t List.mem_cons_self) h
    simp only [beginTurns]
    split
    case isTrue hr =>
      have hl : P (line (s.turn t)) := first _ hr ht
      split
      · exact ih hts.tail hl
      · exact runTurns_keepsIn act step sched hts.tail hl
    case isFalse => exact sched _ _ ht

/-- A test of every event of a schedule says which events fall in it. -/
theorem eventsIn_of_all {p : Event → Bool} {ts : List Turn} (h : (ts.all fun t => t.all p) = true) :
    EventsIn (fun e => p e = true) ts := by
  simpa only [EventsIn, List.all_eq_true] using h

end Sys2Proof.Machine
end

section
/-! PROOF. The foreground steps that write no configuration register (R228, R293, R304): all of them, away from a
resync, which resumes and polls for a service request, and from K3, which cleans up after a suspend. -/

namespace Sys2Proof.Machine

/-- The registers that no operation on the bus writes (R21 to R44, R54): the configuration, the session without its
role, the timers without what runs in an operation, the suspend and the resume, the latch. -/
structure Registers where
  cfg : Cfg
  sess : Session
  tmo : Timers
  suspended : Bool
  resumePending : Bool
  srqLatched : Bool

def State.registers (s : State) : Registers where
  cfg := s.cfg
  sess := { s.sess with role := .idle }
  tmo := { s.tmo with byteCtr := 0#16, totalCtr := 0#16, useFirst := false, opActive := false }
  suspended := s.abt.suspended
  resumePending := s.abt.resumePending
  srqLatched := s.disp.srqLatched

/-- The registers are as they were, and the foreground has not come back to a command boundary. -/
structure SameRegisters (s t : State) : Prop where
  registers : t.registers = s.registers
  phase : t.disp.phase = .awaitLeader → s.disp.phase = .awaitLeader

theorem SameRegisters.refl (s : State) : SameRegisters s s := ⟨rfl, id⟩

variable {s t : State}

theorem SameRegisters.toCleanup (h : SameRegisters s t) : SameRegisters s t.toCleanup := ⟨h.registers, nofun⟩

theorem SameRegisters.finish (r : Result) (h : SameRegisters s t) : SameRegisters s (finish r t) := by
  rcases finish_cases r t with ⟨-, he⟩ | ⟨b, -, -, he⟩ | ⟨b, -, -, he⟩ <;> rw [he]
  · exact h.toCleanup
  · exact ⟨h.registers, h.phase⟩
  · exact ⟨h.registers, h.phase⟩

theorem SameRegisters.replyWith (bs : List Byte) (h : SameRegisters s t) : SameRegisters s (t.replyWith bs) := by
  cases bs with
  | nil => exact h.toCleanup
  | cons b rest => exact ⟨h.registers, h.phase⟩

theorem SameRegisters.receiveFin (w : Result) (h : SameRegisters s t) : SameRegisters s (receiveFin w t) := by
  unfold Machine.receiveFin
  split
  · exact h.finish _
  · exact ⟨h.registers, h.phase⟩

theorem SameRegisters.putDone (k : PutReturn) (sent : Bool) (h : SameRegisters s t) :
    SameRegisters s (putDone k sent t) := by
  cases k with
  | cleanup => exact h.toCleanup
  | resync | item => exact ⟨h.registers, h.phase⟩
  | blockEnd w => exact h.finish _
  | nullByte => exact SameRegisters.finish .ok ⟨h.registers, h.phase⟩
  | blockStart | captured _ =>
    cases sent with
    | true => exact ⟨h.registers, h.phase⟩
    | false => exact h.receiveFin .suspended
  | rawByte =>
    cases sent with
    | true => exact ⟨h.registers, h.phase⟩
    | false => exact h.finish .suspended

theorem putStep_registers (bs : List Byte) (k : PutReturn) (s : State) : SameRegisters s (putStep bs k s) := by
  cases bs with
  | nil => exact (SameRegisters.refl s).putDone k true
  | cons b rest =>
    unfold putStep
    rcases hostPut_cases b s with ⟨-, h⟩ | ⟨-, -, h⟩ | ⟨-, -, h⟩ <;> simp only [h]
    · exact (SameRegisters.refl s).putDone k false
    · exact .refl s
    · split
      · exact SameRegisters.putDone k true ⟨rfl, id⟩
      · exact ⟨rfl, id⟩

/-- A bus wait stamps at most the reason (R171). -/
theorem polling_wait_registers (cond : Bool) (r : Reason) (c : Bool) (s : State) {k : Result → State → State}
    (hk : ∀ w t, SameRegisters s t → SameRegisters s (k w t)) :
    SameRegisters s (polling (wait cond r c s) s k) := by
  rcases wait_cases cond r c s with ⟨-, h⟩ | ⟨-, -, h⟩ | ⟨-, -, -, h⟩ | ⟨-, -, -, -, -, h⟩ | ⟨-, -, -, -, h⟩ <;>
    rw [h]
  · exact hk _ _ (.refl s)
  · exact hk _ _ ⟨rfl, id⟩
  · exact hk _ _ ⟨rfl, id⟩
  · exact hk _ _ (.refl s)
  · exact .refl s

theorem SameRegisters.srcWaited (next : SrcStep) (b : Byte) (eoi : Bool) (k : SrcReturn) (w : Result)
    (h : SameRegisters s t) : SameRegisters s (srcWaited next b eoi k w t) := by
  cases w <;> exact ⟨h.registers, h.phase⟩

theorem srcStep_registers (st : SrcStep) (b : Byte) (eoi : Bool) (k : SrcReturn) (s : State) :
    SameRegisters s (srcStep st b eoi k s) := by
  cases st with
  | s1 | s5 | s7 => exact ⟨rfl, id⟩
  | s2 | s3 | s6 => exact polling_wait_registers _ _ _ s fun w t h => h.srcWaited _ b eoi k w
  | s4 => cases eoi <;> exact ⟨rfl, id⟩
  | s8 =>
    cases k with
    | command _ | data _ => exact ⟨rfl, id⟩
    | last => exact SameRegisters.finish .ok ⟨rfl, id⟩
  | sf w =>
    cases k with
    | command _ => exact ⟨rfl, id⟩
    | data _ | last => exact SameRegisters.finish w ⟨rfl, id⟩

theorem fg_registers (s : State) (hr : s.pos ≠ .resync) (hk : s.pos ≠ .k3) : SameRegisters s (fg s) := by
  unfold fg
  cases hp : s.pos with
  | resync => exact absurd hp hr
  | k3 => exact absurd hp hk
  | put bs k => exact putStep_registers bs k s
  | src st b eoi k => exact srcStep_registers st b eoi k s
  | c3 r release =>
    refine SameRegisters.finish r ?_
    split <;> exact ⟨rfl, id⟩
  | l2 | y2 =>
    refine polling_wait_registers _ _ _ s fun w t h => ?_
    split <;> exact ⟨h.registers, h.phase⟩
  | l7 eoi | y7 => exact polling_wait_registers _ _ _ s fun w t h => ⟨h.registers, h.phase⟩
  | l2f w => exact SameRegisters.receiveFin w ⟨rfl, id⟩
  | l8 w eoi =>
    simp only [receiveL8]
    split
    · exact ⟨rfl, id⟩
    · exact SameRegisters.receiveFin w ⟨rfl, id⟩
  | l9 eoi =>
    simp only [receiveL9]
    split
    · exact SameRegisters.receiveFin .ok ⟨rfl, id⟩
    · exact ⟨rfl, id⟩
  | y2f w =>
    simp only [receiveByteY2Failed]
    split
    · exact SameRegisters.finish .suspended ⟨rfl, id⟩
    · exact ⟨rfl, id⟩
  | y8 w =>
    simp only [receiveByteY8]
    split
    · exact ⟨rfl, id⟩
    · exact SameRegisters.finish w ⟨rfl, id⟩
  | y9 => exact SameRegisters.finish .ok ⟨rfl, id⟩
  | busReset st b => cases st <;> exact ⟨rfl, id⟩
  | k2 =>
    simp only [cleanupK2]
    split <;> exact ⟨rfl, id⟩
  | g2 _ _ | d3 | v3 | w3 => exact ⟨rfl, nofun⟩
  | _ => exact ⟨rfl, id⟩

theorem SameRegisters.onToken (m : DecMode) (x : Token) (h : SameRegisters s t) : SameRegisters s (onToken m x t) := by
  cases m with
  | drain => cases x <;> exact ⟨h.registers, h.phase⟩
  | live =>
    cases x with
    | more | checkpoint => exact ⟨h.registers, h.phase⟩
    | data b =>
      simp only [Machine.onToken, sendBlockB2]
      split <;> exact ⟨h.registers, h.phase⟩
    | finish =>
      simp only [Machine.onToken, sendBlockB4]
      split
      · exact ⟨h.registers, h.phase⟩
      · exact SameRegisters.finish .ok ⟨h.registers, h.phase⟩
    | violation => exact SameRegisters.finish (.failed .frameError) ⟨h.registers, h.phase⟩

/-- What an item does before its run (R143). -/
theorem decodeByte_registers (st : CodecState) (b : Byte) (s : State) : SameRegisters s (decodeByte st b s) :=
  SameRegisters.onToken _ _ ⟨rfl, id⟩

theorem needTalker_registers (s : State) : SameRegisters s s.needTalker := by
  unfold State.needTalker
  split <;> exact ⟨rfl, id⟩

theorem needListener_registers (s : State) : SameRegisters s s.needListener := by
  unfold State.needListener
  split <;> exact ⟨rfl, id⟩

end Sys2Proof.Machine
end

section
/-! PROOF. Each configuration register changes only under its own command (R228, R293, R304, R317): what an instruction
may have written so far (`OnlyWrites`) is kept by events other than a suspend and a power-on reset, by foreground steps,
and by the instruction's own first line. -/

namespace Sys2Proof.Machine

/-- What the instruction `i`, begun in `s` and not disturbed, has at most written when it has come to `t`. The last
three fields carry the others along a run: a resume happens once; no suspend is pending; the foreground comes back to
where a service-request poll is due only with the end of the instruction (R251). -/
structure OnlyWrites (i : Instr) (s t : State) : Prop where
  writeMode : (∀ d, i ≠ .setWriteMode d) → t.sess.writeMode = s.sess.writeMode
  renAsserted : (∀ x, i ≠ .setRen x) → t.sess.renAsserted = s.sess.renAsserted
  srqMonitor : (∀ x, i ≠ .setSrq x) → t.sess.srqMonitor = s.sess.srqMonitor
  byteTimeout : (∀ d, i ≠ .setByteTimeout d) → t.tmo.byteTimeout = s.tmo.byteTimeout
  totalTimeout : (∀ d, i ≠ .setTotalTimeout d) → t.tmo.totalTimeout = s.tmo.totalTimeout
  firstByteTimeout : (∀ d, i ≠ .setFirstTimeout d) → t.tmo.firstByteTimeout = s.tmo.firstByteTimeout
  debugMode : t.sess.debugMode = s.sess.debugMode
  tickArmed : t.tmo.tickArmed = (s.tmo.tickArmed || !t.abt.resumePending && s.abt.resumePending)
  staysOn : s.sess.powered = true → t.sess.powered = true
  powered : i.isCommand = false → t.sess.powered = s.sess.powered
  srqLatched : (∀ x, i ≠ .setSrq x) → s.disp.phase ≠ .awaitLeader → t.disp.srqLatched = s.disp.srqLatched
  cfg : t.cfg = s.cfg
  resumePending : t.abt.resumePending = true → s.abt.resumePending = true
  awake : t.abt.suspended = false
  underway : s.disp.phase ≠ .awaitLeader → t.disp.phase = .awaitLeader → t.pos = .leader

variable {i : Instr} {s t u : State}

theorem OnlyWrites.refl (i : Instr) (hs : s.abt.suspended = false) : OnlyWrites i s s where
  writeMode _ := rfl
  renAsserted _ := rfl
  srqMonitor _ := rfl
  byteTimeout _ := rfl
  totalTimeout _ := rfl
  firstByteTimeout _ := rfl
  debugMode := rfl
  tickArmed := by simp
  staysOn := id
  powered _ := rfl
  srqLatched _ _ := rfl
  cfg := rfl
  resumePending := id
  awake := hs
  underway h h' := absurd h' h

/-- The conditions speak of the registers alone, but for the last. -/
theorem OnlyWrites.of_registers (h : OnlyWrites i s t) (hr : u.registers = t.registers)
    (hu : s.disp.phase ≠ .awaitLeader → u.disp.phase = .awaitLeader → u.pos = .leader) : OnlyWrites i s u := by
  simp only [State.registers, Registers.mk.injEq, Session.mk.injEq, Timers.mk.injEq] at hr
  obtain ⟨hcfg, ⟨-, hren, hmode, hsrq, hdebug, hpow⟩, ⟨hbyte, hfirst, htotal, -, -, -, -, harmed⟩, hsusp, hpend,
    hlatch⟩ := hr
  exact {
    writeMode := fun hn => hmode.trans (h.writeMode hn)
    renAsserted := fun hn => hren.trans (h.renAsserted hn)
    srqMonitor := fun hn => hsrq.trans (h.srqMonitor hn)
    byteTimeout := fun hn => hbyte.trans (h.byteTimeout hn)
    totalTimeout := fun hn => htotal.trans (h.totalTimeout hn)
    firstByteTimeout := fun hn => hfirst.trans (h.firstByteTimeout hn)
    debugMode := hdebug.trans h.debugMode
    tickArmed := by rw [harmed, hpend, h.tickArmed]
    staysOn := fun hs => hpow.trans (h.staysOn hs)
    powered := fun hn => hpow.trans (h.powered hn)
    srqLatched := fun hn hs => hlatch.trans (h.srqLatched hn hs)
    cfg := hcfg.trans h.cfg
    resumePending := fun hp => h.resumePending (hpend.symm.trans hp)
    awake := hsusp.trans h.awake
    underway := hu }

/-- In the middle of the instruction the phase is not that of a command boundary. -/
theorem OnlyWrites.phase_ne (h : OnlyWrites i s t) (hp : t.pos ≠ .leader) (hs : s.disp.phase ≠ .awaitLeader) :
    t.disp.phase ≠ .awaitLeader := fun ht => hp (h.underway hs ht)

/-- What writes no configuration register goes on from the middle of the instruction. -/
theorem OnlyWrites.sameRegisters (h : OnlyWrites i s t) (hp : t.pos ≠ .leader) (hu : SameRegisters t u) :
    OnlyWrites i s u :=
  h.of_registers hu.registers fun hs ht => absurd (hu.phase ht) (h.phase_ne hp hs)

/-- What writes no configuration register begins an instruction. -/
theorem OnlyWrites.of_sameRegisters (hs : s.abt.suspended = false) (hu : SameRegisters s u) : OnlyWrites i s u :=
  (OnlyWrites.refl i hs).of_registers hu.registers fun hne ht => absurd (hu.phase ht) hne

/-! ## Events and foreground steps -/

theorem tick_registers (s : State) : (tick s).registers = s.registers := by
  unfold tick
  split <;> rfl

theorem OnlyWrites.act (e : Event) (he : e.undisturbed = true) (h : OnlyWrites i s t) : OnlyWrites i s (e.act t) := by
  have same (hr : (e.act t).registers = t.registers) (hd : (e.act t).disp = t.disp) (hp : (e.act t).pos = t.pos) :
      OnlyWrites i s (e.act t) := h.of_registers hr (by rw [hd, hp]; exact h.underway)
  cases e with
  | suspend | por => cases he
  | tick => exact same (tick_registers t) (tick_disp t) (tick_pos t)
  | hostByte _ | rxFlush | inputs _ => exact same rfl rfl rfl

/-- A resume arms the tick, which is what a resume that was pending allows (R342). -/
theorem OnlyWrites.resumed (h : OnlyWrites i s t) : OnlyWrites i s t.resumed := by
  unfold State.resumed
  split
  case isTrue hp => exact { h with tickArmed := by simp [h.resumePending hp], resumePending := nofun }
  case isFalse => exact h

/-- A service-request poll writes the latch (R335). -/
theorem OnlyWrites.srqPoll (h : OnlyWrites i s t) (hi : s.disp.phase = .awaitLeader) : OnlyWrites i s (srqPoll t) := by
  rcases srqPoll_cases t with he | he | he <;> rw [he]
  · exact h
  · exact { h with srqLatched := fun _ hne => absurd hi hne }
  · exact { h with srqLatched := fun _ hne => absurd hi hne }

theorem OnlyWrites.resyncStep (h : OnlyWrites i s t) (hp : t.pos = .resync) : OnlyWrites i s (resyncStep t) := by
  have hne : t.pos ≠ .leader := by rw [hp]; exact nofun
  unfold Machine.resyncStep
  rcases hostGet_cases t with ⟨-, hg⟩ | ⟨-, -, hg⟩ | ⟨b, rest, -, -, hg⟩ <;> simp only [hg]
  · exact h.sameRegisters hne ⟨rfl, nofun⟩
  · split
    case isTrue hi => exact h.srqPoll (Classical.byContradiction fun hs => h.phase_ne hne hs hi.1)
    case isFalse => exact h
  · have hr : OnlyWrites i s (State.resumed { t with rx := rest }) := OnlyWrites.resumed { h with }
    have hpr : (State.resumed { t with rx := rest }).pos ≠ .leader := by
      unfold State.resumed
      split <;> exact hne
    split
    · exact hr.sameRegisters hpr (SameRegisters.refl _).toCleanup
    · exact hr

/-- Without a suspend, K3 is the cycle start (R265). -/
theorem OnlyWrites.cleanupK3 (h : OnlyWrites i s t) : OnlyWrites i s (cleanupK3 t) := by
  simp only [Machine.cleanupK3, h.awake, Bool.false_eq_true, if_false]
  exact { h with awake := rfl, underway := fun _ _ => rfl }

theorem OnlyWrites.fg (h : OnlyWrites i s t) : OnlyWrites i s (fg t) := by
  by_cases hl : t.pos = .leader
  · simpa only [Machine.fg, hl] using h
  by_cases hr : t.pos = .resync
  · simpa only [Machine.fg, hr] using h.resyncStep hr
  by_cases hk : t.pos = .k3
  · simpa only [Machine.fg, hk] using h.cleanupK3
  exact h.sameRegisters hl (fg_registers t hr hk)

/-! ## Runs -/

section
variable {ts : List Turn} (hts : EventsIn (fun e => e.undisturbed = true) ts)
include hts

theorem OnlyWrites.runTurns (h : OnlyWrites i s t) : OnlyWrites i s (runTurns ts t) :=
  runTurns_keepsIn (fun e _ he h => h.act e he) (fun _ h => h.fg) (fun _ _ h => { h with }) hts h

theorem OnlyWrites.beginTurns {line : State → State}
    (first : ∀ t, t.pos ≠ .leader → OnlyWrites i s t → OnlyWrites i s (line t)) (h : OnlyWrites i s t) :
    OnlyWrites i s (beginTurns line ts t) :=
  beginTurns_keepsIn (fun e _ he h => h.act e he) (fun _ h => h.fg) (fun _ _ h => { h with })
    (fun t hr => first t fun hp => by rw [hp] at hr; cases hr) hts h

end

section
variable (hts : EventsIn (fun e => e.undisturbed = true) s.sched) (hs : s.abt.suspended = false)
include hts hs

/-- What writes no configuration register, and the run after it. -/
theorem OnlyWrites.run_of_sameRegisters (hu : SameRegisters s u) (hsched : u.sched = s.sched) :
    OnlyWrites i s u.run :=
  (OnlyWrites.of_sameRegisters hs hu).runTurns (hsched ▸ hts)

theorem rejectLine_onlyWrites : OnlyWrites i s (rejectLine s) :=
  OnlyWrites.run_of_sameRegisters hts hs ⟨rfl, nofun⟩ rfl

theorem item_onlyWrites (st : CodecState) (b : Byte) : OnlyWrites i s (decodeByte st b s).run :=
  OnlyWrites.run_of_sameRegisters hts hs (decodeByte_registers st b s) (onToken_host_sched _ _ _).2

/-- A command writes what its first line writes, and power on (R260). -/
theorem execute_onlyWrites (hi : i.isCommand = true) (c : Command) {line : State → State}
    (first : ∀ t, t.pos ≠ .leader → OnlyWrites i s t → OnlyWrites i s (line t)) :
    OnlyWrites i s (execute i c line s) := by
  refine OnlyWrites.beginTurns hts (fun t hp h => ?_) (OnlyWrites.of_sameRegisters hs ⟨rfl, nofun⟩)
  unfold poweredLine
  split
  · exact first t hp h
  · exact { h with staysOn := fun _ => rfl, powered := fun hn => absurd hi (by simp [hn]) }

/-- A command whose first line writes no configuration register. -/
theorem execute_onlyWrites_of_sameRegisters (hi : i.isCommand = true) (c : Command) {line : State → State}
    (first : ∀ t, SameRegisters t (line t)) : OnlyWrites i s (execute i c line s) :=
  execute_onlyWrites hts hs hi c fun t hp h => h.sameRegisters hp (first t)

/-- A configuration command writes its register, and then replies. -/
theorem execute_onlyWrites_of_write (hi : i.isCommand = true) (c : Command) {write : State → State}
    {bs : State → List Byte} (hpos : ∀ t, (write t).pos = t.pos)
    (hwrite : ∀ t, OnlyWrites i s t → OnlyWrites i s (write t)) :
    OnlyWrites i s (execute i c (fun t => (write t).replyWith (bs t)) s) :=
  execute_onlyWrites hts hs hi c fun t hp h =>
    (hwrite t h).sameRegisters (hpos t ▸ hp) ((SameRegisters.refl _).replyWith _)

/-- Every instruction but `O` writes only its own register. -/
theorem exec_onlyWrites (hi : i ≠ .pwrOff) : ∃ t, exec i s = .next t ∧ OnlyWrites i s t := by
  have reject := rejectLine_onlyWrites (i := i) hts hs
  have item (st : CodecState) (b : Byte) := item_onlyWrites (i := i) hts hs st b
  cases i with
  | pwrOff => exact absurd rfl hi
  | pwron | status | busRst => exact ⟨_, rfl, execute_onlyWrites_of_sameRegisters hts hs rfl _ fun _ => ⟨rfl, id⟩⟩
  | ident n =>
    exact ⟨_, rfl, execute_onlyWrites_of_sameRegisters hts hs rfl _ fun t => (SameRegisters.refl t).replyWith _⟩
  | busCmdRelease b | busCmdHold b | blk =>
    exact ⟨_, rfl, execute_onlyWrites_of_sameRegisters hts hs rfl _ fun t =>
      ⟨(needTalker_registers t).registers, (needTalker_registers t).phase⟩⟩
  | recvBlk | recvByte =>
    exact ⟨_, rfl, execute_onlyWrites_of_sameRegisters hts hs rfl _ fun t =>
      ⟨(needListener_registers t).registers, (needListener_registers t).phase⟩⟩
  | setRen x =>
    exact ⟨_, rfl, execute_onlyWrites_of_write hts hs rfl _ (fun _ => rfl) fun t h =>
      { h with renAsserted := fun hn => absurd rfl (hn x) }⟩
  | setSrq x =>
    exact ⟨_, rfl, execute_onlyWrites_of_write hts hs rfl _ (fun _ => rfl) fun t h =>
      { h with srqMonitor := fun hn => absurd rfl (hn x), srqLatched := fun hn => absurd rfl (hn x) }⟩
  | setWriteMode d =>
    simp only [exec, execSetWriteMode]
    cases writeModeOperand d with
    | some v =>
      exact ⟨_, rfl, execute_onlyWrites_of_write hts hs rfl _ (fun _ => rfl) fun t h =>
        { h with writeMode := fun hn => absurd rfl (hn d) }⟩
    | none => exact ⟨_, rfl, reject⟩
  | setByteTimeout d =>
    simp only [exec, execSetByteTimeout]
    cases byteTimeoutOperand s.cfg d with
    | some v =>
      exact ⟨_, rfl, execute_onlyWrites_of_write hts hs rfl _ (fun _ => rfl) fun t h =>
        { h with byteTimeout := fun hn => absurd rfl (hn d) }⟩
    | none => exact ⟨_, rfl, reject⟩
  | setTotalTimeout d =>
    simp only [exec, execSetTotalTimeout]
    cases wideTimeoutOperand d with
    | some v =>
      exact ⟨_, rfl, execute_onlyWrites_of_write hts hs rfl _ (fun _ => rfl) fun t h =>
        { h with totalTimeout := fun hn => absurd rfl (hn d) }⟩
    | none => exact ⟨_, rfl, reject⟩
  | setFirstTimeout d =>
    simp only [exec, execSetFirstTimeout]
    cases wideTimeoutOperand d with
    | some v =>
      exact ⟨_, rfl, execute_onlyWrites_of_write hts hs rfl _ (fun _ => rfl) fun t h =>
        { h with firstByteTimeout := fun hn => absurd rfl (hn d) }⟩
    | none => exact ⟨_, rfl, reject⟩
  | escStart | escEsc | escEnd | escChk | escOther x => exact ⟨_, rfl, item .sawEscape _⟩
  | literal x => exact ⟨_, rfl, item .normal x⟩
  | syntaxError bad =>
    cases bad with
    | line _ => exact ⟨_, rfl, reject⟩
    | oversized _ _ => exact ⟨_, rfl, OnlyWrites.run_of_sameRegisters hts hs ⟨rfl, id⟩ rfl⟩
  | resync bad =>
    simp only [exec, execResync]
    split
    · exact ⟨_, rfl, OnlyWrites.run_of_sameRegisters hts hs ⟨rfl, nofun⟩ rfl⟩
    · exact ⟨_, rfl, OnlyWrites.run_of_sameRegisters hts hs ⟨rfl, id⟩ rfl⟩

end

/-- Settles O33: what `OnlyWrites` says of the state after the instruction. -/
theorem configWritersAreSeparate : Obligations.ConfigWritersAreSeparate := by
  unfold Obligations.ConfigWritersAreSeparate
  intro i s t hsched hs hi ht
  obtain ⟨t', ht', h⟩ := exec_onlyWrites (eventsIn_of_all hsched) hs hi
  cases ht'.symm.trans ht
  exact ⟨h.writeMode, h.renAsserted, h.srqMonitor, h.byteTimeout, h.totalTimeout, h.firstByteTimeout, h.debugMode,
    h.tickArmed, h.staysOn, h.powered, h.srqLatched, h.cfg⟩

end Sys2Proof.Machine
end

section
/-! PROOF. The tick (R222): what it does in each case, when each counter crosses, and how many ticks set the flag
(R230, R231, R234). -/

namespace Sys2Proof.Machine

/-! ## One tick -/

theorem tick_idle {s : State} (h : s.tmo.tickArmed = false ∨ s.tmo.opActive = false) : tick s = s :=
  if_neg fun hgo => by
    rw [Bool.and_eq_true] at hgo
    rcases h with h | h <;> simp [h] at hgo

theorem tick_running {s : State} (harmed : s.tmo.tickArmed = true) (hactive : s.tmo.opActive = true) :
    tick s = { s with
      tmo := { s.tmo with
        byteCtr := (countAgainst s.tmo.byteBound s.tmo.byteCtr).1
        totalCtr := (countAgainst s.tmo.totalBound s.tmo.totalCtr).1 }
      abt := { s.abt with
        timedOut := s.abt.timedOut
          || ((countAgainst s.tmo.byteBound s.tmo.byteCtr).2
            || (countAgainst s.tmo.totalBound s.tmo.totalCtr).2) } } := by
  rw [← Bool.or_assoc]
  exact if_pos (by rw [harmed, hactive]; rfl)

/-- A counter moves when it has a threshold, and crosses when it then meets it. -/
theorem countAgainst_snd_iff {bound : Option Half} {ctr : Half} :
    (countAgainst bound ctr).2 = true ↔ ∃ n, bound = some n ∧ n.toNat ≤ (countAgainst bound ctr).1.toNat := by
  cases bound with
  | none => simp [countAgainst]
  | some n => simp [countAgainst, BitVec.le_def]

/-! ## The thresholds that apply (R222, R223) -/

variable (t : Timers)

/-- The first-byte threshold applies. -/
def Timers.FirstApplies : Prop := t.useFirst = true ∧ t.firstByteTimeout ≠ 0#16

/-- The byte threshold applies. -/
def Timers.ByteApplies : Prop := ¬t.FirstApplies ∧ t.byteTimeout ≠ 0#16

theorem byteBound_of_first (h : t.FirstApplies) : t.byteBound = some t.firstByteTimeout := if_pos h

theorem byteBound_of_byte (h : t.ByteApplies) : t.byteBound = some t.byteTimeout :=
  (if_neg h.1).trans (if_pos h.2)

theorem byteBound_of_neither (h : ¬t.FirstApplies) (h' : ¬t.ByteApplies) : t.byteBound = none :=
  (if_neg h).trans (if_neg fun hb => h' ⟨h, hb⟩)

theorem totalBound_of_ne (h : t.totalTimeout ≠ 0#16) : t.totalBound = some t.totalTimeout := if_pos h

theorem totalBound_of_eq (h : ¬t.totalTimeout ≠ 0#16) : t.totalBound = none := if_neg h

/-- The byte counter's threshold, whichever it is, has a property. -/
theorem exists_byteBound_iff (P : Half → Prop) :
    (∃ n, t.byteBound = some n ∧ P n) ↔
      (t.FirstApplies ∧ P t.firstByteTimeout) ∨ (t.ByteApplies ∧ P t.byteTimeout) := by
  by_cases hf : t.FirstApplies
  · simp [byteBound_of_first t hf, hf, Timers.ByteApplies]
  · by_cases hb : t.ByteApplies
    · simp [byteBound_of_byte t hb, hf, hb]
    · simp [byteBound_of_neither t hf hb, hf, hb]

theorem exists_totalBound_iff (P : Half → Prop) :
    (∃ n, t.totalBound = some n ∧ P n) ↔ t.totalTimeout ≠ 0#16 ∧ P t.totalTimeout := by
  by_cases h : t.totalTimeout ≠ 0#16
  · simp [totalBound_of_ne t h, h]
  · simp [totalBound_of_eq t h, h]

/-- Settles O10: a tick that counts writes what `tick_running` says; each counter moves with its threshold, and the flag
is set by a counter that meets its threshold. -/
theorem tickAction : Obligations.TickAction := by
  unfold Obligations.TickAction
  refine fun s => ⟨tick_idle, fun harmed hactive => ⟨_, _, _, tick_running harmed hactive, ?_, ?_, ?_, ?_, ?_⟩⟩
  · rintro (h | h)
    · rw [byteBound_of_first _ h]; rfl
    · rw [byteBound_of_byte _ h]; rfl
  · intro hf hb
    rw [byteBound_of_neither _ hf hb]; rfl
  · intro h
    rw [totalBound_of_ne _ h]; rfl
  · intro h
    rw [totalBound_of_eq _ h]; rfl
  · rw [Bool.or_eq_true, countAgainst_snd_iff, countAgainst_snd_iff,
      exists_byteBound_iff _ (·.toNat ≤ _), exists_totalBound_iff _ (·.toNat ≤ _), or_assoc]
    rfl

/-! ## `k` ticks -/

/-- The threshold applies and `k` ticks reach it. -/
def Reached (bound : Option Half) (k : Nat) : Prop := ∃ n, bound = some n ∧ n.toNat ≤ k

/-- The counter after `k` ticks from 0; one without a threshold stands still. -/
def counted (bound : Option Half) (k : Nat) : Half := if bound.isSome then BitVec.ofNat 16 k else 0#16

theorem counted_zero (bound : Option Half) : counted bound 0 = 0#16 := by simp [counted]

theorem countAgainst_counted_fst (bound : Option Half) (k : Nat) :
    (countAgainst bound (counted bound k)).1 = counted bound (k + 1) := by
  cases bound with
  | none => rfl
  | some n => simp [countAgainst, counted, BitVec.ofNat_add]

/-- The tick that reaches a threshold is one that crosses it; a later one finds it reached, wrap or not (R234). -/
theorem reached_succ_iff (bound : Option Half) (k : Nat) :
    Reached bound (k + 1) ↔ Reached bound k ∨ (countAgainst bound (counted bound k)).2 = true := by
  rw [countAgainst_snd_iff, countAgainst_counted_fst]
  cases bound with
  | none => simp [Reached]
  | some n =>
    have := n.isLt
    simp only [Reached, counted, Option.some.injEq, exists_eq_left', Option.isSome_some, if_true, BitVec.toNat_ofNat]
    omega

/-- No threshold that applies is 0 (R233). -/
theorem not_reached_byteBound_zero : ¬Reached t.byteBound 0 := by
  rw [Reached, exists_byteBound_iff]
  rintro (⟨⟨-, h⟩, h0⟩ | ⟨⟨-, h⟩, h0⟩) <;> exact h (BitVec.eq_of_toNat_eq (Nat.le_zero.mp h0))

theorem not_reached_totalBound_zero : ¬Reached t.totalBound 0 := by
  rw [Reached, exists_totalBound_iff]
  exact fun ⟨h, h0⟩ => h (BitVec.eq_of_toNat_eq (Nat.le_zero.mp h0))

variable {t} {s : State}

/-- The state after `k` ticks from an operation's beginning. -/
structure TickedTo (t : Timers) (k : Nat) (s : State) : Prop where
  timers : s.tmo = { t with byteCtr := counted t.byteBound k, totalCtr := counted t.totalBound k }
  timedOut : s.abt.timedOut = true ↔ Reached t.byteBound k ∨ Reached t.totalBound k

theorem TickedTo.tick {k : Nat} (h : TickedTo t k s) (harmed : t.tickArmed = true) (hactive : t.opActive = true) :
    TickedTo t (k + 1) (tick s) := by
  have hbyte : s.tmo.byteBound = t.byteBound := by rw [h.timers]; rfl
  have htotal : s.tmo.totalBound = t.totalBound := by rw [h.timers]; rfl
  rw [tick_running (by rw [h.timers]; exact harmed) (by rw [h.timers]; exact hactive), hbyte, htotal]
  refine ⟨?_, ?_⟩
  · simp only [h.timers, countAgainst_counted_fst]
  · simp only [Bool.or_eq_true, h.timedOut, h.timers, reached_succ_iff]
    exact or_or_or_comm ..

theorem turn_ticks_succ (s : State) (k : Nat) :
    s.turn (List.replicate (k + 1) .tick) = tick (s.turn (List.replicate k .tick)) := by
  rw [List.replicate_succ', State.turn, List.foldl_append]
  rfl

theorem tickedTo_ticks (harmed : s.tmo.tickArmed = true) (hactive : s.tmo.opActive = true)
    (hb : s.tmo.byteCtr = 0#16) (ht : s.tmo.totalCtr = 0#16) (hf : s.abt.timedOut = false) (k : Nat) :
    TickedTo s.tmo k (s.turn (List.replicate k .tick)) := by
  induction k with
  | zero =>
    refine ⟨?_, by simp [turn_nil, hf, not_reached_byteBound_zero, not_reached_totalBound_zero]⟩
    rw [counted_zero, counted_zero]
    exact congr (congrArg (fun b c => { s.tmo with byteCtr := b, totalCtr := c }) hb) ht
  | succ k ih =>
    rw [turn_ticks_succ]
    exact ih.tick harmed hactive

/-- Settles O11: by induction on the ticks, the flag says whether they have reached a threshold. -/
theorem nthTickSetsTheFlag : Obligations.NthTickSetsTheFlag := by
  unfold Obligations.NthTickSetsTheFlag
  intro s k harmed hactive hb ht hf
  rw [(tickedTo_ticks harmed hactive hb ht hf k).timedOut, Reached, Reached, exists_byteBound_iff,
    exists_totalBound_iff, or_assoc, Timers.ByteApplies, Timers.FirstApplies]
  simp only [and_assoc]

end Sys2Proof.Machine
end

section
/-! PROOF. A `?` without a talker while every timeout is disabled (R233, R380): the wait for data-valid goes on through
every turn that neither asserts data-valid nor cancels. -/

namespace Sys2Proof.Machine

/-- A tick under no threshold counts nothing (R223, R233). -/
theorem tick_disabled {s : State} (hb : s.tmo.byteBound = none) (ht : s.tmo.totalBound = none) : tick s = s := by
  simp [tick, hb, ht, countAgainst]

/-- The wait L2 of `?` as `s` entered it, with nothing that could end it. -/
structure Hangs (s t : State) : Prop where
  pos : t.pos = .l2
  tmo : t.tmo = s.tmo
  abt : t.abt = s.abt
  out : t.out = s.out
  tx : t.tx = s.tx
  dav : t.inp.lines.dav = false
  hostCancel : t.inp.hostCancel = false

variable {s t : State}

theorem Hangs.act (h : Hangs s t) (hb : s.tmo.byteBound = none) (ht : s.tmo.totalBound = none) (e : Event)
    (he : e.silent = true) : Hangs s (e.act t) := by
  cases e with
  | suspend | por => cases he
  | tick =>
    show Hangs s (tick t)
    rwa [tick_disabled (h.tmo ▸ hb) (h.tmo ▸ ht)]
  | hostByte _ | rxFlush => exact { h with }
  | inputs i =>
    simp only [Event.silent, Bool.and_eq_true, Bool.not_eq_true'] at he
    exact { h with dav := he.1, hostCancel := he.2 }

theorem Hangs.fg (h : Hangs s t) (hto : s.abt.timedOut = false) (hs : s.abt.suspended = false)
    (hd : s.out.dav = false) : fg t = t := by
  have hdav : t.davIn = false := by simp [State.davIn, Inputs.senseLine, h.dav, h.out, hd]
  have hwait : wait t.davIn .noData true t = none :=
    (wait_eq_none ..).mpr ⟨hdav, h.abt ▸ hs, h.abt ▸ hto, by simp [h.hostCancel]⟩
  simp [Machine.fg, h.pos, receiveL2, hwait]

/-- Settles O12: `Hangs` holds at the beginning, every event and every poll that can fall keep it, so it holds at the
end. -/
theorem disabledTimeoutsHang : Obligations.DisabledTimeoutsHang := by
  unfold Obligations.DisabledTimeoutsHang
  intro s hp hbyte hfirst htotal hto hs hd hdav hcancel hsched
  have hb : s.tmo.byteBound = none := by simp [Timers.byteBound, hbyte, hfirst]
  have ht : s.tmo.totalBound = none := by simp [Timers.totalBound, htotal]
  have h : Hangs s s.run := runTurns_keepsIn (P := Hangs s) (fun e _ he h => h.act hb ht e he)
    (fun t h => (h.fg hto hs hd).symm ▸ h) (fun _ _ h => { h with }) (eventsIn_of_all hsched)
    ⟨hp, rfl, rfl, rfl, rfl, hdav, hcancel⟩
  exact ⟨s.run, step_midway s (by rw [hp]; rfl), h.pos, h.tx, h.out, h.abt⟩

end Sys2Proof.Machine
end

section
/-! PROOF. The end of a cycle: the last step of `Cleanup` with a suspend pending and without (R265, R268, R343), and a
suspend that the fetch finds (R266, R269, R344, R345). -/

namespace Sys2Proof.Machine

variable {s : State}

/-! ## K3 -/

theorem fg_k3 (hp : s.pos = .k3) : fg s = cleanupK3 s := by
  simp only [fg, hp]

theorem cleanupK3_awake (hs : s.abt.suspended = false) : cleanupK3 s = s.cycleStart := by
  rw [cleanupK3, hs, if_neg Bool.false_ne_true]

theorem cleanupK3_suspended (hs : s.abt.suspended = true) : cleanupK3 s = s.suspendCleanup.cycleStart := by
  rw [cleanupK3, if_pos hs]

/-- Settles O21: K3 by the Suspended flag; `SuspendCleanup` is the defaults, the power and the four transfer bits. -/
theorem cleanupFinalGroup : Obligations.CleanupFinalGroup := by
  unfold Obligations.CleanupFinalGroup
  intro s hp
  rw [fg_k3 hp]
  exact ⟨cleanupK3_awake, cleanupK3_suspended⟩

/-! ## `Cleanup` in quiet turns -/

/-- K3 is the last step, and the leader is awaited. -/
theorem runTurns_k3 (hp : s.pos = .k3) (ts : List Turn) :
    runTurns ([] :: ts) s = { cleanupK3 s with sched := ts } := by
  rw [runTurns_quiet _ _ (by rw [hp]; rfl), fg_k3 hp]
  exact runTurns_fetch ts _ rfl

/-- A pending suspend keeps K2 from draining (R265). -/
theorem cleanupK2_suspended (hs : s.abt.suspended = true) : cleanupK2 s = s.goto .k3 :=
  if_neg fun ⟨_, _, hawake⟩ => absurd (hs.symm.trans hawake) (by decide)

/-- With a suspend pending `Cleanup` is `EndOp`, `SuspendCleanup` and the cycle start, whatever the command was. -/
theorem runTurns_cleanup_suspended (hp : s.pos = .k1) (hs : s.abt.suspended = true) (ts : List Turn) :
    runTurns (quietTurns 3 ++ ts) s = { s.endOp.suspendCleanup.cycleStart with sched := ts } := by
  have hk1 : fg s = s.endOp.goto .k2 := by simp only [fg, hp, cleanupK1]
  have hk2 : fg (s.endOp.goto .k2) = s.endOp.goto .k3 := cleanupK2_suspended (s := s.endOp.goto .k2) hs
  show runTurns ([] :: [] :: [] :: ts) s = _
  rw [runTurns_quiet _ _ (by rw [hp]; rfl), hk1, runTurns_quiet _ _ rfl, hk2, runTurns_k3 rfl,
    cleanupK3_suspended (s := s.endOp.goto .k3) hs]
  rfl

/-! ## The fetch that finds a suspend -/

/-- Away from the drain an abandoned fetch goes to `Cleanup`: a block-send through `Finish` (R264, R269). -/
theorem fetchAborted_toCleanup (hp : s.pos ≠ .drain) : fetchAborted s = s.toCleanup := by
  unfold fetchAborted
  split
  case h_1 => rfl
  case h_2 h => exact absurd h hp
  case h_3 => rfl

theorem fetchAborted_drain (hp : s.pos = .drain) : fetchAborted s = s.goto .k3 := by
  simp only [fetchAborted, hp]

theorem fetchTurns_quiet_abandon {s' : State} (ts : List Turn) (h : fetchPoll s = .abandon s') :
    fetchTurns ([] :: ts) s = .abandon { s' with sched := ts } := by
  simp [fetchTurns, turn_nil, h]

/-- An abandoned fetch runs on in the turns that are left. -/
theorem step_abandoned {s' : State} (hf : s.pos.isFetch = true) (hr : s.pos.isReady = false)
    (h : fetchTurns s.sched s = .abandon s') : step s = .next s'.run := by
  unfold step
  split
  next j hp =>
    rw [hp] at hr
    cases hr
  next => rw [if_pos hf, h]

/-- The first poll of the fetch finds the suspend. -/
theorem step_suspended (hf : s.pos.isFetch = true) (hr : s.pos.isReady = false) (hs : s.abt.suspended = true)
    {ts : List Turn} (hsched : s.sched = [] :: ts) :
    step s = .next (State.run { fetchAborted s with sched := ts }) :=
  step_abandoned hf hr (hsched ▸ fetchTurns_quiet_abandon ts (fetchPoll_suspended hs))

/-- Settles O31: one turn finds the suspend; then all of `Cleanup`, or from the drain its last step. -/
theorem suspendAbandonsFetch : Obligations.SuspendAbandonsFetch := by
  unfold Obligations.SuspendAbandonsFetch
  intro s ts hs
  refine ⟨fun hp hsched => ?_, fun hp hsched => ?_⟩
  · obtain ⟨hf, hr, hd⟩ : s.pos.isFetch = true ∧ s.pos.isReady = false ∧ s.pos ≠ .drain := by
      obtain h | h | h := hp <;> rw [h] <;> decide
    rw [step_suspended hf hr hs (ts := quietTurns 3 ++ ts) hsched, fetchAborted_toCleanup hd]
    exact congrArg _ (runTurns_cleanup_suspended (s := { s.toCleanup with sched := _ }) rfl hs ts)
  · rw [step_suspended (by rw [hp]; rfl) (by rw [hp]; rfl) hs (ts := [] :: ts) hsched, fetchAborted_drain hp, run_eq,
      runTurns_k3 rfl, cleanupK3_suspended (s := { s.goto .k3 with sched := _ }) hs]
    rfl

end Sys2Proof.Machine
end

section
/-! PROOF. The items of a block in the drain of `Cleanup` (R143, R145, R266): a token of a payload byte or a checkpoint
leaves the drain waiting for the next item, the end marker and a violation lead to K3. -/

namespace Sys2Proof.Machine

variable {s : State} {st : CodecState} {b x : Byte}

theorem exec_escStart (s : State) : exec .escStart s = .next (decodeByte .sawEscape s.cfg.blockStart s).run := rfl

theorem exec_escOther (x : Byte) (s : State) : exec (.escOther x) s = .next (decodeByte .sawEscape x s).run := rfl

theorem decMode_drain (hp : s.pos = .drain) : s.decMode = .drain := if_pos hp

theorem State.goto_self {p : Pos} (hp : s.pos = p) : s.goto p = s := by
  subst hp
  rfl

/-- A run that begins where an instruction is awaited is over. -/
theorem run_fetch (h : s.pos.isFetch = true) : s.run = s := runTurns_fetch s.sched s h

section
variable (hp : s.pos = .drain)
include hp

/-- A payload byte is discarded. -/
theorem run_drain_data (hd : decStep s.cfg st s.xfer.seenFirst b = (.normal, true, .data x)) :
    (decodeByte st b s).run = s.afterPayload := by
  have hstart : decodeByte st b s = s.afterPayload.goto .drain := by
    simp only [decodeByte, hd, decMode_drain hp]
    rfl
  rw [hstart, run_fetch rfl]
  exact State.goto_self hp

/-- A checkpoint after a payload byte is discarded without its acknowledgment. -/
theorem run_drain_checkpoint (hc : s.cfg.ok = true) (hseen : s.xfer.seenFirst = true) :
    (decodeByte .sawEscape s.cfg.checkpoint s).run = s.setXfer fun x => { x with codec := .normal } := by
  have hstart : decodeByte .sawEscape s.cfg.checkpoint s =
      (s.setXfer fun x => { x with codec := .normal }).goto .drain := by
    simp only [decodeByte, decStep_escape_checkpoint hc, hseen, if_true, decMode_drain hp]
    simp [onToken, State.setXfer, hseen]
  rw [hstart, run_fetch rfl]
  exact State.goto_self hp

/-- The end marker and a violation end the drain, and one more turn the cycle. -/
theorem run_drain_end (hs : s.abt.suspended = false)
    (hd : decStep s.cfg .sawEscape s.xfer.seenFirst b = (.normal, s.xfer.seenFirst, .finish)
      ∨ decStep s.cfg .sawEscape s.xfer.seenFirst b = (.normal, s.xfer.seenFirst, .violation))
    {ts : List Turn} (hsched : s.sched = [] :: ts) :
    (decodeByte .sawEscape b s).run = { s.afterEnd.cycleStart with sched := ts } := by
  have hstart : decodeByte .sawEscape b s = s.afterEnd.goto .k3 := by
    obtain hd | hd := hd <;> simp only [decodeByte, hd, decMode_drain hp] <;> rfl
  rw [hstart, run_eq, State.goto_sched, State.afterEnd_sched, hsched, runTurns_k3 rfl,
    cleanupK3_awake (s := s.afterEnd.goto .k3) hs]
  rfl

end

/-- Settles O53: each item by its row of R141, and by what its token does in the drain. -/
theorem drainItems : Obligations.DrainItems := by
  unfold Obligations.DrainItems
  intro s x ts hc hp hs
  obtain ⟨hse, -, -, hsend, hsc, -, -, -⟩ := Cfg.ok_markers hc
  refine ⟨fun hx => ?_, ?_, fun hseen => ?_, fun hsched => ⟨?_, ?_, fun hseen => ?_, fun hx => ?_⟩⟩
  · exact congrArg _ (run_drain_data hp (decStep_normal_data _ hx))
  · exact congrArg _ (run_drain_data hp (decStep_escape_escape _ _))
  · exact congrArg _ (run_drain_checkpoint hp hc hseen)
  · exact congrArg _ (run_drain_end hp hs (.inl (decStep_escape_end hc _)) hsched)
  · exact congrArg _ (run_drain_end hp hs (.inr (decStep_escape_other _ hse hsend hsc)) hsched)
  · refine congrArg _ (run_drain_end hp hs (.inr ?_) hsched)
    rw [decStep_escape_checkpoint hc, hseen, if_neg Bool.false_ne_true]
  · simp only [List.mem_cons, List.not_mem_nil, or_false, not_or] at hx
    obtain ⟨hesc, hend, hchk⟩ := hx
    exact congrArg _ (run_drain_end hp hs (.inr (decStep_escape_other _ hesc hend hchk)) hsched)

end Sys2Proof.Machine
end

section
/-! PROOF. How an outcome is finished, and the three steps of the bus reset (R215, R264). -/

namespace Sys2Proof.Machine

variable (s : State) (r : Byte)

theorem fg_busReset_z1 : fg (s.goto (.busReset .z1 r)) = s.releaseBus.goto (.busReset .z2 r) := rfl

theorem fg_busReset_z2 : fg (s.goto (.busReset .z2 r)) =
    (s.drive fun o => { o with ifc := true }).goto (.busReset .z3 r) := rfl

theorem fg_busReset_z3 : fg (s.goto (.busReset .z3 r)) =
    (s.drive fun o => { o with ifc := false }).goto (.put [r] .cleanup) := rfl

/-- With IFC released already, `ReleaseBus` leaves every line released (R176). -/
theorem releaseBus_eq_released {s : State} (h : s.out.ifc = false) : s.releaseBus = s.onBus .idle s.out.released := by
  have hout : s.releaseBus.out = s.out.released := by
    simp only [State.releaseBus_out, BusOut.released, h]
  rw [← hout]
  rfl

/-- Settles O22: each outcome by `Code` (R263) and the test for a bus reset; the pulse step by step. -/
theorem finishAndBusReset : Obligations.FinishAndBusReset := by
  unfold Obligations.FinishAndBusReset
  intro s
  refine ⟨rfl, rfl, rfl, rfl, rfl, rfl, rfl, rfl, fun r hifc => ?_⟩
  rw [fg_busReset_z1, fg_busReset_z2, fg_busReset_z3, releaseBus_eq_released hifc]
  exact ⟨rfl, rfl, rfl⟩

end Sys2Proof.Machine
end

section
/-! PROOF. The fetch of a command through its quiet turns (R253, R254, R256, R257), by induction over its bytes. The
resume that the first byte brings (R342) is moved before the parser's writes, and the bytes taken after them. -/

namespace Sys2Proof.Machine

variable {s : State} {i : Instr} {b : Byte} {rest : List Byte}

/-! ## The parser's registers -/

/-- The parser reads back the state it wrote. -/
theorem State.setParser_parser (s : State) (st : ParseState) : (s.setParser st).parser = st := by
  cases st <;> rfl

theorem State.setParser_cfg (s : State) (st : ParseState) : (s.setParser st).cfg = s.cfg := by cases st <;> rfl

theorem State.setParser_abt (s : State) (st : ParseState) : (s.setParser st).abt = s.abt := by cases st <;> rfl

theorem State.setParser_rx (s : State) (st : ParseState) : (s.setParser st).rx = s.rx := by cases st <;> rfl

/-- The fetch of a command goes on at the leader or inside a line. -/
theorem State.setParser_pos (s : State) (st : ParseState) :
    (s.setParser st).pos = .leader ∨ (s.setParser st).pos = .body := by
  cases st with
  | leader0 => exact .inl rfl
  | leader1 => exact .inl rfl
  | body _ => exact .inr rfl

theorem State.took_parser (s : State) (rest : List Byte) : (s.took rest).parser = s.parser := by
  obtain h | h := resumed_eq s <;> rw [State.took, h] <;> rfl

/-- Once a byte has been taken no resume is pending, and the parser's writes do not change that (R342). -/
theorem State.took_setParser_resumed (s : State) (rest : List Byte) (st : ParseState) :
    ((s.took rest).setParser st).resumed = { s.resumed.setParser st with rx := rest } := by
  cases h : s.abt.resumePending <;> cases st <;> simp [State.took, State.resumed, State.setParser, h]

/-- What is in the RX queue is no matter of the parser's registers. -/
theorem State.parsed_setRx (s : State) (rx : List Byte) (st : ParseState) (bs : List Byte) :
    ({ s with rx := rx } : State).parsed st bs = { s.parsed st bs with rx := rx } := by
  induction bs generalizing s st with
  | nil => rfl
  | cons b bs ih =>
    simp only [State.parsed]
    cases parseByte s.cfg st b with
    | done i => rfl
    | more st' =>
      have hset : ({ s with rx := rx } : State).setParser st' = { s.setParser st' with rx := rx } := by
        cases st' <;> rfl
      simp only [hset, ih]

theorem State.parsed_more {st st' : ParseState} {bs : List Byte} (h : parseByte s.cfg st b = .more st') :
    s.parsed st (b :: bs) = (s.setParser st').parsed st' bs := by
  simp only [State.parsed, h]

theorem State.parsed_done {st : ParseState} {bs : List Byte} (h : parseByte s.cfg st b = .done i) :
    s.parsed st (b :: bs) = s := by
  simp only [State.parsed, h]

/-! ## One poll of a command's fetch -/

/-- A command is not read where an item of a block is awaited. -/
theorem not_block_of_command (hp : s.pos = .leader ∨ s.pos = .body) : ¬(s.pos = .item ∨ s.pos = .drain) := by
  obtain h | h := hp <;> rw [h] <;> decide

section
variable {bs : List Byte} (hp : s.pos = .leader ∨ s.pos = .body) (hs : s.abt.suspended = false) (hr : s.rx = b :: bs)
include hp hs hr

theorem fetchPoll_command_more {st : ParseState} (h : parseByte s.cfg s.parser b = .more st) :
    fetchPoll s = .more ((s.took bs).setParser st) := by
  rw [fetchPoll_byte hs hr]
  simp only [fetchByte, State.took_pos, State.took_cfg, State.took_parser, if_neg (not_block_of_command hp), h]

theorem fetchPoll_command_done (h : parseByte s.cfg s.parser b = .done i) : fetchPoll s = .instr i (s.took bs) := by
  rw [fetchPoll_byte hs hr]
  simp only [fetchByte, State.took_pos, State.took_cfg, State.took_parser, if_neg (not_block_of_command hp), h]

end

/-! ## The whole command -/

/-- An instruction takes at least a byte. -/
theorem length_lt_of_decodeFrom {c : Cfg} {st : ParseState} {bs : List Byte} (h : decodeFrom c st bs = .ok (i, rest)) :
    rest.length < bs.length := by
  induction bs generalizing st with
  | nil => cases h
  | cons b bs ih =>
    cases hb : parseByte c st b with
    | done j =>
      rw [decodeFrom_done hb] at h
      cases h
      exact Nat.lt_succ_self _
    | more st' =>
      rw [decodeFrom_more hb] at h
      exact Nat.lt_succ_of_lt (ih h)

/-- One quiet turn a byte, as far as the bytes of the instruction go. -/
theorem fetchTurns_command (hp : s.pos = .leader ∨ s.pos = .body) (hs : s.abt.suspended = false)
    (hdec : decodeFrom s.cfg s.parser s.rx = .ok (i, rest)) (ts : List Turn) :
    fetchTurns (quietTurns (s.rx.length - rest.length) ++ ts) s =
      .instr i { s.resumed.parsed s.parser s.rx with rx := rest, sched := ts } := by
  generalize hrx : s.rx = bs at hdec ⊢
  induction bs generalizing s with
  | nil => cases hdec
  | cons b bs ih =>
    cases hb : parseByte s.cfg s.parser b with
    | done j =>
      rw [decodeFrom_done hb] at hdec
      cases hdec
      rw [List.length_cons, Nat.add_sub_cancel_left, State.parsed_done (s.resumed_cfg.symm ▸ hb)]
      exact fetchTurns_quiet_instr ts (fetchPoll_command_done hp hs hrx hb)
    | more st =>
      rw [decodeFrom_more hb] at hdec
      have hturns : quietTurns ((b :: bs).length - rest.length) = [] :: quietTurns (bs.length - rest.length) := by
        rw [List.length_cons, Nat.succ_sub (Nat.le_of_lt (length_lt_of_decodeFrom hdec)), quietTurns_succ]
      have htail := ih (s := (s.took bs).setParser st) (State.setParser_pos _ st)
        (by rwa [State.setParser_abt, State.took_suspended]) (State.setParser_rx _ st)
        (by rwa [State.setParser_cfg, State.took_cfg, State.setParser_parser])
      rw [hturns, List.cons_append, fetchTurns_quiet_more _ (fetchPoll_command_more hp hs hrx hb), htail,
        State.setParser_parser, State.took_setParser_resumed, State.parsed_setRx,
        State.parsed_more (s.resumed_cfg.symm ▸ hb)]

/-- Settles O26: the fetch by `fetchTurns_command`, and the step executes what it reads. -/
theorem stepRunsDecodedCommand : Obligations.StepRunsDecodedCommand := by
  unfold Obligations.StepRunsDecodedCommand
  intro s i rest ts hp _ hs hdec hsched
  obtain ⟨hf, hr⟩ : s.pos.isFetch = true ∧ s.pos.isReady = false := by
    obtain h | h := hp <;> rw [h] <;> decide
  exact step_fetched hf hr (hsched ▸ fetchTurns_command hp hs hdec ts)

end Sys2Proof.Machine
end

section
/-! PROOF. How a command begins and ends in quiet turns (R259, R260, R262, R265), and the power commands `PWRON` and `O`
(R280, R288). -/

namespace Sys2Proof.Machine

variable {s : State} {ts : List Turn}

/-! ## The beginning and the reply -/

theorem canSend_iff : s.canSend = true ↔ s.abt.suspended = false ∧ s.inp.txFull = false := by
  simp [State.canSend]

/-- The implicit power-on writes `powered` and `role` only (R289). -/
theorem poweredUp_eq (s : State) : s.poweredUp = { s with sess := s.poweredUp.sess } := by
  unfold State.poweredUp
  split <;> rfl

/-- `Execute` writes `cur_cmd`, the phase and the position, of which the power-on reads none. -/
theorem dispatched_poweredUp (s : State) (i : Instr) (c : Command) :
    (s.dispatched i c).poweredUp = s.poweredUp.dispatched i c := by
  cases hp : s.sess.powered <;> simp only [State.poweredUp, State.dispatched, hp] <;> rfl

/-- `execute_quiet`, the power-on before `Execute`'s own writes. -/
theorem execute_poweredUp (i : Instr) (c : Command) {line : State → State}
    (hline : ∀ u, (line u).pos.isReady = false) (hsched : s.sched = quietTurns s.beginning ++ ts) :
    execute i c line s = runTurns ts (line (s.poweredUp.dispatched i c)) := by
  rw [execute_quiet i c line s ts hline hsched, dispatched_poweredUp]

/-- A reply of one byte takes one turn, `Cleanup` three. -/
theorem runTurns_replyByte (b : Byte) (hs : s.canSend = true)
    (hd : s.disp.curCmd ≠ some .sendBlk ∨ s.xfer.blockDone = true) :
    runTurns (quietTurns 4 ++ ts) (s.replyWith [b]) = (s.sent [b]).ended ts :=
  runTurns_reply (s.goto (.put [b] .cleanup)) [b] ts rfl (by simp) hs hd

/-! ## `PWRON` and `O` -/

theorem exec_pwron_quiet (hs : s.canSend = true) (hsched : s.sched = quietTurns (s.beginning + 4) ++ ts) :
    exec .pwron s = .next ((s.poweredUp.sent [s.cfg.ack]).ended ts) := by
  rw [quietTurns_add, List.append_assoc] at hsched
  have hrun := execute_poweredUp .pwron .pwrOn (line := fun s => s.replyWith [s.cfg.ack]) (fun _ => rfl) hsched
  refine congrArg Host.Outcome.next (hrun.trans ?_)
  rw [poweredUp_eq]
  exact runTurns_replyByte _ hs (.inl nofun)

/-- `O` is its line and `Cleanup`, from on or off (R288). -/
theorem exec_pwrOff_quiet (hs : s.abt.suspended = false) (hsched : s.sched = quietTurns 4 ++ ts) :
    exec .pwrOff s = .next (s.powerOff.ended ts) := by
  have hrun : exec .pwrOff s =
      .next (beginTurns (fun u => u.powerOff.toCleanup) (quietTurns 4 ++ ts) (s.dispatched .pwrOff .pwrOff)) :=
    hsched ▸ rfl
  refine hrun.trans (congrArg _ ?_)
  exact runTurns_cleanup (s.dispatched .pwrOff .pwrOff).powerOff.toCleanup ts rfl hs (.inl nofun)

/-- Settles O37: `PWRON` by its reply, `O` by its one line; `O` does not look at the TX queue. -/
theorem powerCommandsComplete : Obligations.PowerCommandsComplete := by
  unfold Obligations.PowerCommandsComplete
  exact fun s ts hs => ⟨fun htx => exec_pwron_quiet (canSend_iff.mpr ⟨hs, htx⟩), exec_pwrOff_quiet hs⟩

end Sys2Proof.Machine
end

section
/-! PROOF. The bus reset in turns (R215, R264), and `Z` (R287). -/

namespace Sys2Proof.Machine

variable {s : State} {ts : List Turn}

/-- After Z1: the pulse, the reply and `Cleanup`. -/
theorem runTurns_pulse (r : Byte) (hs : s.canSend = true)
    (hd : s.disp.curCmd ≠ some .sendBlk ∨ s.xfer.blockDone = true) :
    runTurns (quietTurns 6 ++ ts) (s.releaseBus.goto (.busReset .z2 r)) =
      ((s.onBus .idle s.out.released).sent [r]).ended ts := by
  show runTurns ([] :: [] :: (quietTurns 4 ++ ts)) _ = _
  rw [runTurns_quiet _ _ rfl, fg_busReset_z2, runTurns_quiet _ _ rfl, fg_busReset_z3]
  exact runTurns_replyByte (s := s.onBus .idle s.out.released) r hs hd

theorem exec_busRst_quiet (hs : s.canSend = true) (hsched : s.sched = quietTurns (s.beginning + 6) ++ ts) :
    exec .busRst s = .next (((s.poweredUp.onBus .idle s.out.released).sent [s.cfg.ack]).ended ts) := by
  rw [quietTurns_add, List.append_assoc] at hsched
  have hrun := execute_poweredUp .busRst .busRst (line := fun s => busResetStep .z1 s.cfg.ack s) (fun _ => rfl) hsched
  refine congrArg Host.Outcome.next (hrun.trans ?_)
  rw [poweredUp_eq]
  exact runTurns_pulse _ hs (.inl nofun)

/-- Settles O38. -/
theorem busResetCompletes : Obligations.BusResetCompletes := by
  unfold Obligations.BusResetCompletes
  exact fun s ts => exec_busRst_quiet

/-! ## `Z` at a command boundary -/

/-- Between two commands there is nothing for the end of a command to write: the timers, the abort bits and the
dispatcher are as `Cleanup` leaves them (R252, R293). -/
theorem ended_of_idle (hinv : s.inv = true) (hidle : s.idle = true) (ts : List Turn) :
    s.ended ts = { s with sched := ts } := by
  simp only [State.inv, Bool.and_eq_true, and_assoc] at hinv
  obtain ⟨-, -, -, -, -, -, -, htimers, -, habort, -⟩ := hinv
  simp only [State.idle, Bool.and_eq_true, beq_iff_eq, Bool.not_eq_true', and_assoc] at hidle
  obtain ⟨hpos, hphase, hleader, hbuf, hcmd, hsusp, -, hop⟩ := hidle
  simp only [State.timersFit, hop, hphase, Bool.false_eq_true, if_false, Bool.and_eq_true, Bool.not_eq_true', beq_iff_eq,
    and_assoc] at htimers
  obtain ⟨-, hfirst, hbyte, htotal⟩ := htimers
  simp only [State.abortFits, hphase, Bool.or_eq_true, Bool.and_eq_true, Bool.not_eq_true', beq_iff_eq] at habort
  obtain ⟨htimed, hreason⟩ := habort.resolve_left (by decide)
  obtain ⟨_, _, ⟨⟩, ⟨⟩, _, ⟨⟩, _, _, _, _, _, _⟩ := s
  simp only at hpos hphase hleader hbuf hcmd hsusp hop hfirst hbyte htotal htimed hreason
  subst hpos hphase hleader hbuf hcmd hsusp hop hfirst hbyte htotal htimed hreason
  rfl

/-- The state after `Z`, with power on, but for what the end of a command writes. -/
def State.busReset (s : State) : State := (s.onBus .idle s.out.released).sent [s.cfg.ack]

theorem exec_busRst_on (hpow : s.sess.powered = true) (hs : s.canSend = true) (hsched : s.sched = quietTurns 7 ++ ts) :
    exec .busRst s = .next (s.busReset.ended ts) := by
  have hup : s.poweredUp = s := if_pos hpow
  have hbegin : s.beginning = 1 := if_pos hpow
  rw [exec_busRst_quiet hs (by rw [hbegin, hsched]), hup]
  rfl

/-- The end of a command writes nothing that `Z` reads, so `Z` leaves a command boundary a command boundary. -/
theorem busReset_ended (hb : ∀ ts, s.ended ts = { s with sched := ts }) (ts : List Turn) :
    s.busReset.ended ts = { s.busReset with sched := ts } :=
  congrArg State.busReset (hb ts)

/-- Settles O39: both resets begin at a command boundary, and released lines released again stay as they are. -/
theorem busResetIsIdempotent : Obligations.BusResetIsIdempotent := by
  unfold Obligations.BusResetIsIdempotent
  intro s ts hinv hidle hs hpow hsched
  have hb := ended_of_idle hinv hidle
  have htwice : s.busReset.busReset.ended ts =
      { s.onBus .idle s.out.released with tx := s.tx ++ [s.cfg.ack, s.cfg.ack], sched := ts } := by
    have htx : s.busReset.busReset.tx = s.tx ++ [s.cfg.ack, s.cfg.ack] := List.append_assoc ..
    rw [busReset_ended (busReset_ended hb), ← htx]
    rfl
  refine ⟨?_, ?_⟩
  · exact (exec_busRst_on hpow hs hsched).trans (congrArg _ (busReset_ended hb _))
  · exact (exec_busRst_on (s := { s.busReset with sched := quietTurns 7 ++ ts }) hpow hs rfl).trans (congrArg _ htwice)

end Sys2Proof.Machine
end

section
/-! PROOF. The commands that source bytes, up to their first byte (R281, R284): G1 and D1 make CORE a talker; `BLK` then
opens the block. -/

namespace Sys2Proof.Machine

variable {s : State} {ts : List Turn}

/-! ## The first line of a command that sources bytes -/

/-- The implicit power-on makes CORE neither a talker nor a listener (R289). -/
theorem role_of_poweredUp {r : Role} (hr : r ≠ .idle) (h : s.poweredUp.sess.role = r) : s.sess.role = r := by
  cases hp : s.sess.powered with
  | true => rwa [State.poweredUp, hp, if_pos rfl] at h
  | false =>
    rw [State.poweredUp, hp, if_neg Bool.false_ne_true] at h
    exact absurd h.symm hr

theorem poweredUp_writeMode (s : State) : s.poweredUp.sess.writeMode = s.sess.writeMode := by
  cases hp : s.sess.powered <;> simp [State.poweredUp, hp]

/-- A talker already drives neither acceptor line (R177), and `AssumeTalker` releases them (R174). -/
theorem needTalker_eq (h : s.sess.role = .talker → s.out.nrfd = false ∧ s.out.ndac = false) :
    s.needTalker = s.onBus .talker { s.out with nrfd := false, ndac := false } := by
  unfold State.needTalker
  split
  case isFalse => rfl
  case isTrue hr =>
    have hout : { s.out with nrfd := s.out.nrfd, ndac := s.out.ndac } = s.out := rfl
    rw [(h hr).1, (h hr).2] at hout
    rw [hout, ← hr]
    rfl

/-- `Execute` of a command `c` after its first line G1 or D1: power on, CORE a talker. -/
def State.asTalker (s : State) (c : Command) : State :=
  { s with
    sess := { s.poweredUp.sess with role := .talker }
    disp := { s.disp with curCmd := some c, phase := .dispatch }
    out := { s.out with nrfd := false, ndac := false } }

theorem execute_needTalker (i : Instr) (c : Command) {p : Pos} (hp : p.isReady = false) (hl : s.linesFitRole = true)
    (hsched : s.sched = quietTurns s.beginning ++ ts) :
    execute i c (fun u => u.needTalker.goto p) s = runTurns ts ((s.asTalker c).goto p) := by
  have hlines : s.poweredUp.sess.role = .talker → s.out.nrfd = false ∧ s.out.ndac = false := by
    intro hr
    have hrole : s.sess.role = .talker := role_of_poweredUp nofun hr
    simp only [State.linesFitRole, hrole, Bool.and_eq_true, Bool.not_eq_true'] at hl
    exact hl.1
  rw [execute_poweredUp i c (fun _ => hp) hsched, poweredUp_eq,
    needTalker_eq (s := State.dispatched { s with sess := s.poweredUp.sess } i c) hlines]
  rfl

/-! ## `BLK` -/

/-- Settles O48: D1, and then D2, D3 and B0, one turn each. -/
theorem blockOpens : Obligations.BlockOpens := by
  unfold Obligations.BlockOpens
  intro s ts hl hsched
  rw [quietTurns_add, List.append_assoc] at hsched
  refine congrArg Host.Outcome.next ((execute_needTalker .blk .sendBlk rfl hl hsched).trans ?_)
  show runTurns ([] :: [] :: [] :: ts) _ = _
  rw [runTurns_quiet _ _ rfl, runTurns_quiet _ _ rfl, runTurns_quiet _ _ rfl, runTurns_fetch _ _ rfl, poweredUp_eq,
    ← poweredUp_writeMode]
  rfl

end Sys2Proof.Machine
end

section
/-! PROOF. `C xx` and `c xx` with a listener (R180, R185, R281, R282). -/

namespace Sys2Proof.Machine

variable {s : State} {ts : List Turn} {b : Byte} {release : Bool} {i : Inputs} {n : Nat}

/-! ## Around the handshake -/

/-- The operation has begun and attention is asserted (G2, C1). -/
def State.commanding (s : State) : State := (s.beginOp.setPhase .transfer).drive fun o => { o with atn := true }

theorem runTurns_g2 : runTurns (quietTurns 2 ++ ts) (s.goto (.g2 b release)) =
    runTurns ts (s.commanding.goto (.src .s1 b false (.command release))) := by
  show runTurns ([] :: [] :: ts) _ = _
  rw [runTurns_quiet _ _ rfl, runTurns_quiet _ _ rfl]
  rfl

/-- C3 and G4 release attention unless the command holds it; then `ACK` and `Cleanup`. -/
theorem runTurns_c3_ok (hs : s.canSend = true) (hd : s.disp.curCmd ≠ some .sendBlk) :
    runTurns (quietTurns 5 ++ ts) (s.goto (.c3 .ok release)) =
      (State.sent { s with out := { s.out with atn := s.out.atn && !release } } [s.cfg.ack]).ended ts := by
  have hc3 : fg (s.goto (.c3 .ok release)) =
      State.replyWith { s with out := { s.out with atn := s.out.atn && !release } } [s.cfg.ack] := by
    cases release with
    | true => rw [Bool.not_true, Bool.and_false]; rfl
    | false => rw [Bool.not_false, Bool.and_true]; rfl
  show runTurns ([] :: (quietTurns 4 ++ ts)) _ = _
  rw [runTurns_quiet _ _ rfl, hc3]
  exact runTurns_replyByte _ hs (.inl hd)

/-! ## The two commands -/

/-- `C xx`, which releases attention after a success, or `c xx`, which does not. -/
def busCmdInstr (b : Byte) : Bool → Instr
  | true => .busCmdRelease b
  | false => .busCmdHold b

theorem exec_busCmd_quiet (release : Bool) (hl : s.linesFitRole = true)
    (hsched : s.sched = quietTurns s.beginning ++ (quietTurns 2 ++ ts)) :
    exec (busCmdInstr b release) s =
      .next (runTurns ts ((s.asTalker (.busCmd b release)).commanding.goto (.src .s1 b false (.command release)))) := by
  rw [← runTurns_g2]
  cases release <;> exact congrArg _ (execute_needTalker _ _ rfl hl hsched)

/-- CORE's side of a handshake under attention with a listener that waits. -/
theorem asTalker_listenerWaits {c : Command} (hnrfd : s.inp.lines.nrfd = false) (hndac : s.inp.lines.ndac = true) :
    ListenerWaits (s.asTalker c).commanding := ⟨rfl, rfl, hnrfd, hndac⟩

/-- In the middle of the handshake, at S6. -/
theorem busCmd_offered (release : Bool) (hl : s.linesFitRole = true) (hnrfd : s.inp.lines.nrfd = false)
    (hndac : s.inp.lines.ndac = true) (heoi : s.out.eoi = false) (hsched : s.sched = quietTurns (s.beginning + 7)) :
    ∃ t, exec (busCmdInstr b release) s = .next t
      ∧ t.out = { s.out.sourced b with atn := true, dav := true, eoi := false } := by
  refine ⟨_, exec_busCmd_quiet (ts := quietTurns 5 ++ []) release hl ?_, ?_⟩
  · rw [hsched, quietTurns_add]; rfl
  · rw [runTurns_offer (asTalker_listenerWaits hnrfd hndac)]
    exact congrArg (fun e => { s.out.sourced b with atn := true, dav := true, eoi := e }) heoi

/-- The listener accepts after `n` further polls at S6. -/
theorem busCmd_accepted (release : Bool) (hs : s.canSend = true) (ht : s.abt.timedOut = false)
    (hl : s.linesFitRole = true) (hnrfd : s.inp.lines.nrfd = false) (hndac : s.inp.lines.ndac = true)
    (hi : i.lines.ndac = false) (hfull : i.txFull = false)
    (hsched : s.sched = quietTurns (s.beginning + 7 + n) ++ [Event.inputs i] :: (quietTurns 7 ++ ts)) :
    exec (busCmdInstr b release) s = .next
      (({ s.poweredUp.onBus .talker { s.out.sourced b with atn := !release } with inp := i }.sent
        [s.cfg.ack]).ended ts) := by
  have hsusp := (canSend_iff.mp hs).1
  have hturns : s.sched = quietTurns s.beginning ++ (quietTurns 2 ++
      (quietTurns (5 + n) ++ [.inputs i] :: (quietTurns 2 ++ (quietTurns 5 ++ ts)))) := by
    rw [hsched, Nat.add_assoc, quietTurns_add, Nat.add_assoc 2 5 n, quietTurns_add 2, List.append_assoc,
      List.append_assoc]
    rfl
  rw [exec_busCmd_quiet release hl hturns, runTurns_srcHandshake (asTalker_listenerWaits hnrfd hndac) ht hsusp hi,
    poweredUp_eq]
  exact congrArg _ (runTurns_c3_ok (s := (s.asTalker (.busCmd b release)).commanding.delivered b i)
    (canSend_iff.mpr ⟨hsusp, hfull⟩) nofun)

/-- Settles O46: both commands in the middle of the handshake and at its end. -/
theorem busCommandsComplete : Obligations.BusCommandsComplete := by
  unfold Obligations.BusCommandsComplete
  intro s b i n ts hs ht hl hnrfd hndac
  exact ⟨fun heoi hsched =>
      ⟨busCmd_offered true hl hnrfd hndac heoi hsched, busCmd_offered false hl hnrfd hndac heoi hsched⟩,
    fun hi hfull hsched => ⟨busCmd_accepted true hs ht hl hnrfd hndac hi hfull hsched,
      busCmd_accepted false hs ht hl hnrfd hndac hi hfull hsched⟩⟩

end Sys2Proof.Machine
end

section
/-! PROOF. The turn whose ticks reach the bound of an operation's first byte (R222, R230), and the lines that nobody
drives (R78). -/

namespace Sys2Proof.Machine

variable {s : State} {ts : List Turn} {n : Nat}

/-! ## Ticks up to the first byte's bound -/

/-- The ticks that the first byte of an operation is given: `first_byte_timeout`, or `byte_timeout` if that is 0
(R223). -/
def Timers.firstBound (t : Timers) : Nat :=
  if t.firstByteTimeout ≠ 0#16 then t.firstByteTimeout.toNat else t.byteTimeout.toNat

/-- The counters stand at `bc` and `tc`, and the timeout flag is set. -/
def State.expired (s : State) (bc tc : Half) : State :=
  { s with tmo := { s.tmo with byteCtr := bc, totalCtr := tc }, abt := { s.abt with timedOut := true } }

/-- Any number of ticks write the counters and the timeout flag, and never clear the flag (R221, R231). -/
theorem turn_ticks_frame (s : State) (n : Nat) :
    ∃ bc tc f, s.turn (List.replicate n .tick) =
      { s with
        tmo := { s.tmo with byteCtr := bc, totalCtr := tc }
        abt := { s.abt with timedOut := s.abt.timedOut || f } } := by
  induction n with
  | zero => exact ⟨s.tmo.byteCtr, s.tmo.totalCtr, false, by rw [Bool.or_false]; rfl⟩
  | succ n ih =>
    obtain ⟨bc, tc, f, hn⟩ := ih
    obtain ⟨bc', tc', f', htick⟩ := tick_frame (s.turn (List.replicate n .tick))
    refine ⟨bc', tc', f || f', ?_⟩
    rw [turn_ticks_succ, htick, hn, ← Bool.or_assoc]

/-- Timers as `BeginOp` leaves them (R224) run out at the tick that reaches the first byte's bound, if the flag was not
set already. -/
theorem turn_ticks_expired (hbegun : s.beginOp = s) (harmed : s.tmo.tickArmed = true) (hn : n = s.tmo.firstBound)
    (hpos : 0 < n) : ∃ bc tc, s.turn (List.replicate n .tick) = s.expired bc tc := by
  obtain ⟨bc, tc, f, hframe⟩ := turn_ticks_frame s n
  have hflag : (s.turn (List.replicate n .tick)).abt.timedOut = true := by
    cases ht : s.abt.timedOut with
    | true => rw [hframe, ht]; rfl
    | false =>
      have hfirst : s.tmo.useFirst = true := congrArg (·.tmo.useFirst) hbegun.symm
      refine (nthTickSetsTheFlag s n harmed (congrArg (·.tmo.opActive) hbegun.symm)
        (congrArg (·.tmo.byteCtr) hbegun.symm) (congrArg (·.tmo.totalCtr) hbegun.symm) ht).mpr ?_
      by_cases h : s.tmo.firstByteTimeout ≠ 0#16
      · rw [Timers.firstBound, if_pos h] at hn
        exact .inl ⟨hfirst, h, Nat.le_of_eq hn.symm⟩
      · rw [Timers.firstBound, if_neg h] at hn
        refine .inr (.inl ⟨fun h' => h h'.2, fun h0 => ?_, Nat.le_of_eq hn.symm⟩)
        rw [hn, h0] at hpos
        exact absurd hpos (by decide)
  refine ⟨bc, tc, ?_⟩
  rw [hframe] at hflag ⊢
  exact congrArg (fun f => ({ s.expired bc tc with abt := { s.abt with timedOut := f } } : State)) hflag

/-- The foreground step of that turn finds the flag set. -/
theorem runTurns_ticks_expired {p : Pos} (hp : p.isFetch = false) (hbegun : s.beginOp = s)
    (harmed : s.tmo.tickArmed = true) (hn : n = s.tmo.firstBound) (hpos : 0 < n) :
    ∃ bc tc, runTurns (List.replicate n .tick :: ts) (s.goto p) = runTurns ts (fg ((s.expired bc tc).goto p)) := by
  obtain ⟨bc, tc, h⟩ := turn_ticks_expired (s := s.goto p) (congrArg (·.goto p) hbegun) harmed hn hpos
  exact ⟨bc, tc, by rw [runTurns_cons _ _ _ hp (by rw [h]; exact hp), h]; rfl⟩

/-! ## Lines that nobody drives (R78) -/

theorem nrfdIn_eq_false (hin : s.inp.lines.nrfd = false) (hout : s.out.nrfd = false) : s.nrfdIn = false := by
  simp [State.nrfdIn, Inputs.senseLine, hin, hout]

theorem ndacIn_eq_false (hin : s.inp.lines.ndac = false) (hout : s.out.ndac = false) : s.ndacIn = false := by
  simp [State.ndacIn, Inputs.senseLine, hin, hout]

theorem davIn_eq_false (hin : s.inp.lines.dav = false) (hout : s.out.dav = false) : s.davIn = false := by
  simp [State.davIn, Inputs.senseLine, hin, hout]

end Sys2Proof.Machine
end

section
/-! PROOF. `C` and `c` on a bus where nobody answers (R180, R283, R322 row 4). -/

namespace Sys2Proof.Machine

variable {s : State} {ts : List Turn} {b : Byte} {n : Nat} {release : Bool} {r : Reason}

/-! ## A handshake under attention that fails -/

/-- The byte stands on the data lines, data-valid not asserted (S1). -/
def State.placing (s : State) (b : Byte) : State := s.drive fun o => { o with dio := b, dioOe := true }

theorem fg_src_s1 {eoi : Bool} {k : SrcReturn} :
    fg (s.goto (.src .s1 b eoi k)) = (s.placing b).goto (.src .s2 b eoi k) := rfl

/-- S2 without a listener, at the bound (R180, R321). -/
theorem fg_src_s2_expired {eoi : Bool} {k : SrcReturn} (hnrfd : s.nrfdIn = false) (hndac : s.ndacIn = false)
    (hs : s.abt.suspended = false) (ht : s.abt.timedOut = true) :
    fg (s.goto (.src .s2 b eoi k)) = (s.stamp (some .noListener)).goto (.src (.sf (.failed .noListener)) b eoi k) := by
  have hw : wait (s.nrfdIn || s.ndacIn) .noListener false (s.goto (.src .s2 b eoi k)) =
      some (.failed .noListener, (s.goto (.src .s2 b eoi k)).stamp (some .noListener)) := by
    simp [wait, hnrfd, hndac, hs, ht]
  exact congrArg (polling · _ _) hw

/-- Z1, the pulse, the reply and `Cleanup`. -/
theorem runTurns_busReset (reply : Byte) (hs : s.canSend = true)
    (hd : s.disp.curCmd ≠ some .sendBlk ∨ s.xfer.blockDone = true) :
    runTurns (quietTurns 7 ++ ts) (s.goto (.busReset .z1 reply)) =
      ((s.onBus .idle s.out.released).sent [reply]).ended ts := by
  show runTurns ([] :: (quietTurns 6 ++ ts)) _ = _
  rw [runTurns_quiet _ _ rfl, fg_busReset_z1, runTurns_pulse reply hs hd]

theorem finish_busReset {w : Result} {code : Byte} (hw : w.resetsBus = true) (hcode : w.code s.cfg = some code) :
    finish w s = s.goto (.busReset .z1 code) := by
  simp only [finish, hcode, hw, if_true]

/-- C3 after a failure: attention is released, and then the bus reset (R185, R281, R326). -/
theorem fg_c3_failed (hr : (Result.failed r).resetsBus = true) {code : Byte}
    (hcode : (Result.failed r).code s.cfg = some code) :
    fg (s.goto (.c3 (.failed r) release)) = (s.drive fun o => { o with atn := false }).goto (.busReset .z1 code) := by
  have hrelease : ¬(Result.failed r = .ok ∧ release = false) := nofun
  show finish (.failed r) (if _ then _ else _) = _
  rw [if_neg hrelease]
  exact finish_busReset hr hcode

/-- From SF a failed handshake of `C` or `c` goes through C3 to the bus reset and the code (R180, R185, R326). -/
theorem runTurns_command_failed (hr : (Result.failed r).resetsBus = true) {code : Byte}
    (hcode : (Result.failed r).code s.cfg = some code) (hs : s.canSend = true) (hd : s.disp.curCmd ≠ some .sendBlk) :
    runTurns (quietTurns 9 ++ ts) (s.goto (.src (.sf (.failed r)) b false (.command release))) =
      ((s.onBus .idle s.out.released).sent [code]).ended ts := by
  have hsf : fg (s.goto (.src (.sf (.failed r)) b false (.command release))) =
      (s.drive fun o => { o with dav := false, eoi := false }).goto (.c3 (.failed r) release) := rfl
  show runTurns ([] :: [] :: (quietTurns 7 ++ ts)) _ = _
  rw [runTurns_quiet _ _ rfl, hsf, runTurns_quiet _ _ rfl, fg_c3_failed (s := s.drive _) hr hcode]
  exact runTurns_busReset code hs (.inl hd)

/-- `fg_src_s2_expired` for `C` and `c`, to the end of the command. -/
theorem runTurns_s2_expired (hnrfd : s.nrfdIn = false) (hndac : s.ndacIn = false) (hs : s.canSend = true)
    (ht : s.abt.timedOut = true) (hd : s.disp.curCmd ≠ some .sendBlk) :
    runTurns (quietTurns 9 ++ ts) (fg (s.goto (.src .s2 b false (.command release)))) =
      ((s.onBus .idle s.out.released).sent [0x08#8]).ended ts := by
  rw [fg_src_s2_expired hnrfd hndac (canSend_iff.mp hs).1 ht]
  exact runTurns_command_failed (s := s.stamp (some .noListener)) rfl rfl hs hd

/-! ## The two commands on an empty bus -/

theorem busCmd_unheard (release : Bool) (hs : s.canSend = true) (hl : s.linesFitRole = true)
    (harmed : s.tmo.tickArmed = true) (hnrfd : s.inp.lines.nrfd = false) (hndac : s.inp.lines.ndac = false)
    (hn : n = s.tmo.firstBound) (hpos : 0 < n)
    (hsched : s.sched = quietTurns (s.beginning + 3) ++ List.replicate n Event.tick :: (quietTurns 9 ++ ts)) :
    exec (busCmdInstr b release) s = .next
      (((s.poweredUp.onBus .idle { s.out.released with dio := b }).sent [0x08#8]).ended ts) := by
  have hturns : s.sched = quietTurns s.beginning ++ (quietTurns 2 ++
      ([] :: List.replicate n .tick :: (quietTurns 9 ++ ts))) := by
    rw [hsched, quietTurns_add, List.append_assoc]
    rfl
  have hbegin := exec_busCmd_quiet (b := b) release hl hturns
  rw [runTurns_quiet _ _ rfl, fg_src_s1] at hbegin
  obtain ⟨bc, tc, hexpired⟩ := runTurns_ticks_expired (ts := quietTurns 9 ++ ts)
    (s := (s.asTalker (.busCmd b release)).commanding.placing b) (p := .src .s2 b false (.command release))
    rfl rfl harmed hn hpos
  rw [hbegin, hexpired, poweredUp_eq]
  exact congrArg Host.Outcome.next
    (runTurns_s2_expired (nrfdIn_eq_false hnrfd rfl) (ndacIn_eq_false hndac rfl) hs rfl nofun)

/-- Settles O47: S2 fails at the bound of the first byte, for both commands. -/
theorem commandWithoutListener : Obligations.CommandWithoutListener := by
  unfold Obligations.CommandWithoutListener
  intro s b n ts hs hl harmed hnrfd hndac hn hpos hsched
  exact ⟨busCmd_unheard true hs hl harmed hnrfd hndac hn hpos hsched,
    busCmd_unheard false hs hl harmed hnrfd hndac hn hpos hsched⟩

end Sys2Proof.Machine
end

section
/-! PROOF. `?` without a talker (R200, R204, R285, R291, R322 row 5). -/

namespace Sys2Proof.Machine

variable {s : State} {ts : List Turn} {n : Nat}

/-! ## The first line of a command that accepts bytes, and up to the wait for data-valid -/

/-- After V1 or W1 CORE is a listener, and once attention is released and NRFD asserted its lines are those of a
listener between bytes (R175, R204). -/
theorem needListener_listening (h : s.sess.role = .listener →
      s.out.dav = false ∧ s.out.eoi = false ∧ s.out.dioOe = false ∧ s.out.ndac = true) :
    ∃ o : BusOut, s.needListener = s.onBus .listener o ∧ { o with atn := false, nrfd := true } = s.out.listening := by
  unfold State.needListener
  split
  case isFalse => exact ⟨_, rfl, rfl⟩
  case isTrue hr =>
    obtain ⟨hdav, heoi, hoe, hndac⟩ := h hr
    refine ⟨s.out, by rw [← hr]; rfl, ?_⟩
    simp only [BusOut.listening, hdav, heoi, hoe, hndac]

/-- `Execute` of a command `c` after its first line V1 or W1: power on, CORE a listener, `o` its outputs. -/
def State.asListener (s : State) (c : Command) (o : BusOut) : State :=
  { s with
    sess := { s.poweredUp.sess with role := .listener }
    disp := { s.disp with curCmd := some c, phase := .dispatch }
    out := o }

theorem execute_needListener (i : Instr) (c : Command) {p : Pos} (hp : p.isReady = false) (hl : s.linesFitRole = true)
    (hndac : s.sess.role = .listener → s.out.ndac = true) (hsched : s.sched = quietTurns s.beginning ++ ts) :
    ∃ o : BusOut, execute i c (fun u => u.needListener.goto p) s = runTurns ts ((s.asListener c o).goto p)
      ∧ { o with atn := false, nrfd := true } = s.out.listening := by
  have hlines : s.poweredUp.sess.role = .listener →
      s.out.dav = false ∧ s.out.eoi = false ∧ s.out.dioOe = false ∧ s.out.ndac = true := by
    intro hr
    have hrole : s.sess.role = .listener := role_of_poweredUp nofun hr
    simp only [State.linesFitRole, hrole, Bool.and_eq_true, Bool.not_eq_true', and_assoc] at hl
    obtain ⟨hdav, heoi, hoe, -⟩ := hl
    exact ⟨hdav, heoi, hoe, hndac hrole⟩
  obtain ⟨o, ho, hout⟩ :=
    needListener_listening (s := State.dispatched { s with sess := s.poweredUp.sess } i c) hlines
  refine ⟨o, ?_, hout⟩
  rw [execute_poweredUp i c (fun _ => hp) hsched, poweredUp_eq, ho]
  rfl

/-- The operation has begun, attention is released, the block is open toward the host, and CORE is ready for data (V2 to
L1). -/
def State.acceptingBlock (s : State) : State :=
  (({ s with out := { s.out with atn := false, nrfd := false }, xfer := { s.xfer with dir := .receive } }
    |>.sent (encStart s.cfg)).setPhase .transfer).beginOp

/-- The start marker goes to the host, and then L1. -/
theorem runTurns_encStart (hs : s.canSend = true) :
    runTurns (quietTurns 2 ++ ts) (s.goto (.put (encStart s.cfg) .blockStart)) =
      runTurns ts ((s.sent (encStart s.cfg)).goto .l1) := by
  obtain ⟨last, hput⟩ := runTurns_put .blockStart ts (encStart s.cfg) (s.goto (.put (encStart s.cfg) .blockStart))
    rfl (by simp [encStart]) hs
  exact hput

theorem runTurns_v2 (hs : s.canSend = true) :
    runTurns (quietTurns 6 ++ ts) (s.goto .v2) = runTurns ts (s.acceptingBlock.goto .l2) := by
  show runTurns ([] :: [] :: [] :: (quietTurns 2 ++ [] :: ts)) _ = _
  rw [runTurns_quiet _ _ rfl, runTurns_quiet _ _ rfl, runTurns_quiet _ _ rfl]
  refine (runTurns_encStart (s := ((s.drive fun o => { o with atn := false }).beginOp.setPhase .transfer).setXfer
    fun x => { x with dir := .receive }) hs).trans ?_
  rw [runTurns_quiet _ _ rfl]
  rfl

/-! ## The wait for data-valid that fails -/

/-- L2 without a talker, at the bound (R200, R321). -/
theorem fg_l2_expired (hdav : s.davIn = false) (hs : s.abt.suspended = false) (ht : s.abt.timedOut = true) :
    fg (s.goto .l2) = (s.stamp (some .noData)).goto (.l2f (.failed .noData)) := by
  have hw : wait s.davIn .noData true (s.goto .l2) =
      some (.failed .noData, (s.goto .l2).stamp (some .noData)) := by
    simp [wait, hdav, hs, ht]
  show polling (wait s.davIn .noData true (s.goto .l2)) _ _ = _
  rw [hw]
  rfl

theorem sent_sent (s : State) (bs cs : List Byte) : (s.sent bs).sent cs = s.sent (bs ++ cs) := by
  simp [State.sent]

/-- The end marker goes to the host, and then the code, without a bus reset (R200, R326). -/
theorem runTurns_encEnd_noData (hs : s.canSend = true) (hd : s.disp.curCmd ≠ some .sendBlk) :
    runTurns (quietTurns 6 ++ ts) (s.goto (.put (encEnd s.cfg) (.blockEnd (.failed .noData)))) =
      (s.sent (encEnd s.cfg ++ [0x09#8])).ended ts := by
  obtain ⟨last, hput⟩ := runTurns_put (.blockEnd (.failed .noData)) (quietTurns 4 ++ ts) (encEnd s.cfg)
    (s.goto (.put (encEnd s.cfg) (.blockEnd (.failed .noData)))) rfl (by simp [encEnd]) hs
  rw [← sent_sent]
  exact hput.trans (runTurns_replyByte (s := (s.sent (encEnd s.cfg)).goto _) 0x09#8 hs (.inl hd))

/-- The listener is not ready any more, and the block is closed toward the host all the same (R200, R204). -/
theorem runTurns_l2f_noData (hs : s.canSend = true) (hd : s.disp.curCmd ≠ some .sendBlk) :
    runTurns (quietTurns 7 ++ ts) (s.goto (.l2f (.failed .noData))) =
      (State.sent { s with out := { s.out with nrfd := true } } (encEnd s.cfg ++ [0x09#8])).ended ts := by
  show runTurns ([] :: (quietTurns 6 ++ ts)) _ = _
  rw [runTurns_quiet _ _ rfl]
  exact runTurns_encEnd_noData (s := s.drive fun o => { o with nrfd := true }) hs hd

/-- `fg_l2_expired`, to the end of the command. -/
theorem runTurns_l2_expired (hdav : s.davIn = false) (hs : s.canSend = true) (ht : s.abt.timedOut = true)
    (hd : s.disp.curCmd ≠ some .sendBlk) :
    runTurns (quietTurns 7 ++ ts) (fg (s.goto .l2)) =
      (State.sent { s with out := { s.out with nrfd := true } } (encEnd s.cfg ++ [0x09#8])).ended ts := by
  rw [fg_l2_expired hdav (canSend_iff.mp hs).1 ht]
  exact runTurns_l2f_noData (s := s.stamp (some .noData)) hs hd

/-- Settles O55: the empty block is opened, L2 fails at the bound of the first byte, and the block is closed. -/
theorem receiveBlockWithoutTalker : Obligations.ReceiveBlockWithoutTalker := by
  unfold Obligations.ReceiveBlockWithoutTalker
  intro s n ts hs hl harmed hndac hrest hn hpos hsched
  simp only [Inputs.restful, Bool.and_eq_true, Bool.not_eq_true', and_assoc] at hrest
  rw [quietTurns_add, List.append_assoc] at hsched
  obtain ⟨o, hbegin, hout⟩ := execute_needListener .recvBlk .recvBlk (p := .v2) rfl hl hndac hsched
  rw [runTurns_v2 (s := s.asListener .recvBlk o) hs] at hbegin
  obtain ⟨bc, tc, hexpired⟩ := runTurns_ticks_expired (ts := quietTurns 7 ++ ts)
    (s := (s.asListener .recvBlk o).acceptingBlock) (p := .l2) rfl rfl harmed hn hpos
  have hends := runTurns_l2_expired (ts := ts) (s := (s.asListener .recvBlk o).acceptingBlock.expired bc tc)
    (davIn_eq_false hrest.1 (congrArg BusOut.dav hout)) hs rfl nofun
  have hblock : encodeBlock s.cfg [] ++ [0x09#8] = encStart s.cfg ++ (encEnd s.cfg ++ [0x09#8]) := rfl
  refine congrArg Host.Outcome.next (hbegin.trans ?_)
  rw [hexpired, hends, poweredUp_eq, ← hout, hblock, ← sent_sent _ (encStart s.cfg)]
  rfl

end Sys2Proof.Machine
end

section
/-! PROOF. The configuration and query commands (R300 to R309): a first line that writes a register of its own and then
replies, from on or off. -/

namespace Sys2Proof.Machine

variable {s : State} {ts : List Turn}

/-! ## A command that is a write and a reply -/

/-- A reply of any length, the empty one included, takes a turn for each byte, and `Cleanup` three. -/
theorem runTurns_replyWith (bs : List Byte) (hs : s.canSend = true)
    (hd : s.disp.curCmd ≠ some .sendBlk ∨ s.xfer.blockDone = true) :
    runTurns (quietTurns (bs.length + 3) ++ ts) (s.replyWith bs) = (s.sent bs).ended ts := by
  cases bs with
  | nil =>
    have hsent : s.sent [] = s := by simp [State.sent]
    rw [hsent]
    exact runTurns_cleanup s.toCleanup ts rfl (canSend_iff.mp hs).1 hd
  | cons b rest => exact runTurns_reply (s.goto (.put (b :: rest) .cleanup)) (b :: rest) ts rfl nofun hs hd

theorem replyWith_not_ready (s : State) (bs : List Byte) : (s.replyWith bs).pos.isReady = false := by
  cases bs <;> rfl

/-- A first line that writes registers which neither the reply's polls nor `Cleanup` read, and then replies. -/
theorem execute_reply (i : Instr) {c : Command} {write : State → State} {bs : State → List Byte} {sent : List Byte}
    (hwrite : ∀ u, (write u).canSend = u.canSend ∧ (write u).disp.curCmd = u.disp.curCmd) (hc : c ≠ .sendBlk)
    (hbs : bs (State.dispatched { s with sess := s.poweredUp.sess } i c) = sent) (hs : s.canSend = true)
    (hsched : s.sched = quietTurns (s.beginning + (sent.length + 3)) ++ ts) :
    execute i c (fun u => (write u).replyWith (bs u)) s =
      ((write (State.dispatched { s with sess := s.poweredUp.sess } i c)).sent sent).ended ts := by
  rw [quietTurns_add, List.append_assoc] at hsched
  rw [execute_poweredUp i c (fun _ => replyWith_not_ready _ _) hsched, poweredUp_eq, hbs]
  obtain ⟨hcan, hcur⟩ := hwrite (State.dispatched { s with sess := s.poweredUp.sess } i c)
  exact runTurns_replyWith sent (hcan.trans hs) (.inl fun h => hc (Option.some.inj (hcur.symm.trans h)))

/-- A configuration command is its write and `ACK`. -/
theorem execute_ack (i : Instr) {c : Command} {write : State → State}
    (hwrite : ∀ u, (write u).canSend = u.canSend ∧ (write u).disp.curCmd = u.disp.curCmd) (hc : c ≠ .sendBlk)
    (hs : s.canSend = true) (hsched : s.sched = quietTurns (s.beginning + 4) ++ ts) :
    execute i c (fun u => (write u).replyWith [u.cfg.ack]) s =
      ((write (State.dispatched { s with sess := s.poweredUp.sess } i c)).sent [s.cfg.ack]).ended ts :=
  execute_reply i (bs := fun u => [u.cfg.ack]) hwrite hc rfl hs hsched

/-! ## The configuration commands -/

/-- Settles O40: the operand is the number itself, and the command its write and `ACK`. -/
theorem writeModeCompletes : Obligations.WriteModeCompletes := by
  unfold Obligations.WriteModeCompletes
  intro s d v ts hs hd hv hsched
  have hoperand : writeModeOperand d = some (BitVec.ofNat 3 v) := by simp [writeModeOperand, hd, hv]
  simp only [exec, execSetWriteMode, hoperand]
  rw [poweredUp_eq]
  exact congrArg Host.Outcome.next (execute_ack _ (fun _ => ⟨rfl, rfl⟩) nofun hs hsched)

theorem byteTimeoutOperand_eq {d : Digits} {v : Nat} (c : Cfg) (hd : d.parse = some v) :
    byteTimeoutOperand c d = some (BitVec.ofNat 16 (v % 2 ^ c.byteTimeoutWidth.bits)) := by
  simp [byteTimeoutOperand, hd]

/-- The reduction to 16 bits is the word's own. -/
theorem wideTimeoutOperand_eq {d : Digits} {v : Nat} (hd : d.parse = some v) :
    wideTimeoutOperand d = some (BitVec.ofNat 16 v) := by
  simp only [wideTimeoutOperand, hd]
  exact congrArg some (BitVec.eq_of_toNat_eq (by simp))

/-- Settles O41: each operand by its own reduction, and each command its write and `ACK`. -/
theorem timeoutsComplete : Obligations.TimeoutsComplete := by
  unfold Obligations.TimeoutsComplete
  intro s d v ts hs hd hsched
  simp only [exec, execSetByteTimeout, execSetTotalTimeout, execSetFirstTimeout, byteTimeoutOperand_eq s.cfg hd,
    wideTimeoutOperand_eq hd]
  rw [poweredUp_eq]
  refine ⟨congrArg Host.Outcome.next ?_, congrArg Host.Outcome.next ?_, congrArg Host.Outcome.next ?_⟩
  all_goals exact execute_ack _ (fun _ => ⟨rfl, rfl⟩) nofun hs hsched

/-- Settles O42: each is its write and `ACK`. -/
theorem policiesComplete : Obligations.PoliciesComplete := by
  unfold Obligations.PoliciesComplete
  intro s x ts hs hsched
  rw [poweredUp_eq]
  refine ⟨congrArg Host.Outcome.next ?_, congrArg Host.Outcome.next ?_⟩
  all_goals exact execute_ack _ (fun _ => ⟨rfl, rfl⟩) nofun hs hsched

/-! ## The queries -/

/-- Settles O43: each writes nothing and replies what it is asked for; the status is sampled with the power on. -/
theorem queriesComplete : Obligations.QueriesComplete := by
  unfold Obligations.QueriesComplete
  intro s n ts ts' hs
  rw [poweredUp_eq]
  refine ⟨fun hsched => congrArg Host.Outcome.next ?_, fun hsched => congrArg Host.Outcome.next ?_⟩
  · exact execute_reply (.ident n) (write := id) (bs := fun u => u.cfg.idString n) (fun _ => ⟨rfl, rfl⟩) nofun rfl hs
      hsched
  · exact execute_reply .status (write := id) (bs := fun u => [u.statusByte]) (fun _ => ⟨rfl, rfl⟩) nofun rfl hs hsched

end Sys2Proof.Machine
end

section
/-! PROOF. Host bytes that are no command (R254, R258, R314), and command terms whose operand is rejected (R316). -/

namespace Sys2Proof.Machine

variable {s : State} {ts : List Turn}

/-! ## Lines that are no command -/

theorem run_of_sched (h : s.sched = ts) : s.run = runTurns ts s := h ▸ rfl

/-- `NAK` and `Cleanup`, from on or off (R314). -/
theorem rejectLine_quiet (hs : s.canSend = true) (hsched : s.sched = quietTurns 4 ++ ts) :
    rejectLine s = (s.sent [s.cfg.nak]).ended ts :=
  (run_of_sched (s := State.replyWith { s with disp := _ } [s.cfg.nak]) hsched).trans
    (runTurns_replyByte s.cfg.nak hs (.inl nofun))

/-- A term whose operand is rejected is answered like a line that is no command (R316). -/
theorem exec_setWriteMode_rejected {d : Digits} (hd : ∀ v, d.parse = some v → 7 < v) :
    exec (.setWriteMode d) s = .next (rejectLine s) := by
  have hnone : writeModeOperand d = none := by
    unfold writeModeOperand
    split
    case h_1 v hv => exact if_neg (Nat.not_le.mpr (hd v hv))
    case h_2 => rfl
  simp only [exec, execSetWriteMode, hnone]

theorem exec_timeouts_rejected {d : Digits} (hd : d.parse = none) :
    exec (.setByteTimeout d) s = .next (rejectLine s) ∧ exec (.setTotalTimeout d) s = .next (rejectLine s)
    ∧ exec (.setFirstTimeout d) s = .next (rejectLine s) := by
  simp only [exec, execSetByteTimeout, execSetTotalTimeout, execSetFirstTimeout, byteTimeoutOperand, wideTimeoutOperand,
    hd, and_self]

/-! ## Discarded bytes -/

/-- A byte that a resync takes: `TERM` ends it, any other is discarded (R254). -/
theorem fg_resync_byte {b : Byte} {rest : List Byte} (hs : s.abt.suspended = false)
    (hresume : s.abt.resumePending = false) (hrx : s.rx = b :: rest) :
    fg (s.goto .resync) =
      if b = s.cfg.term then State.toCleanup { s with rx := rest } else State.goto { s with rx := rest } .resync := by
  simp only [fg, State.goto_pos, resyncStep, hostGet, State.goto_abt, hs, State.goto_rx, hrx, Bool.false_eq_true,
    if_false, State.resumed, hresume]
  rfl

/-- A resync takes a turn for each byte through the next `TERM`, and `Cleanup` three. -/
theorem runTurns_resync {junk rest : List Byte} (hs : s.abt.suspended = false) (hresume : s.abt.resumePending = false)
    (hd : s.disp.curCmd ≠ some .sendBlk) (hrx : s.rx = junk ++ s.cfg.term :: rest) (hjunk : s.cfg.term ∉ junk) :
    runTurns (quietTurns (junk.length + 4) ++ ts) (s.goto .resync) = State.ended { s with rx := rest } ts := by
  induction junk generalizing s with
  | nil =>
    show runTurns ([] :: (quietTurns 3 ++ ts)) _ = _
    rw [runTurns_quiet _ _ rfl, fg_resync_byte hs hresume hrx, if_pos rfl]
    exact runTurns_cleanup (State.toCleanup { s with rx := rest }) ts rfl hs (.inl hd)
  | cons b junk ih =>
    obtain ⟨hb, hjunk⟩ : s.cfg.term ≠ b ∧ s.cfg.term ∉ junk := by simpa using hjunk
    rw [List.length_cons, Nat.add_right_comm, quietTurns_succ, List.cons_append, runTurns_quiet _ _ rfl,
      fg_resync_byte hs hresume hrx, if_neg (Ne.symm hb)]
    exact ih (s := { s with rx := junk ++ s.cfg.term :: rest }) hs hresume hd rfl hjunk

/-- The `NAK` of an oversized line takes one turn more (R256, R258). -/
theorem runTurns_nak_resync {junk rest : List Byte} (hs : s.canSend = true) (hresume : s.abt.resumePending = false)
    (hd : s.disp.curCmd ≠ some .sendBlk) (hrx : s.rx = junk ++ s.cfg.term :: rest) (hjunk : s.cfg.term ∉ junk) :
    runTurns (quietTurns (junk.length + 5) ++ ts) (s.goto (.put [s.cfg.nak] .resync)) =
      (State.sent { s with rx := rest } [s.cfg.nak]).ended ts := by
  have hnak : fg (s.goto (.put [s.cfg.nak] .resync)) = (s.sent [s.cfg.nak]).goto .resync :=
    fg_put (s.goto _) s.cfg.nak [] .resync rfl hs
  rw [quietTurns_succ, List.cons_append, runTurns_quiet _ _ rfl, hnak]
  exact runTurns_resync (s := s.sent [s.cfg.nak]) (canSend_iff.mp hs).1 hresume hd hrx hjunk

theorem exec_resync_term {bad : BadLeader} (hbad : bad.byte = s.cfg.term) :
    exec (.resync bad) s = .next s.toCleanup.run := by
  simp only [exec, execResync, if_pos hbad]

theorem exec_resync_other {bad : BadLeader} (hbad : bad.byte ≠ s.cfg.term) :
    exec (.resync bad) s = .next (s.goto .resync).run := by
  simp only [exec, execResync, if_neg hbad]

/-- Settles O45: `NAK` for a line and for a rejected operand; `Cleanup` at once where the leader's place is taken by
`TERM`; else the bytes through the next `TERM` discarded, after the `NAK` of an oversized line. -/
theorem badInputCompletes : Obligations.BadInputCompletes := by
  unfold Obligations.BadInputCompletes
  intro s ts hs
  have hcan (htx : s.inp.txFull = false) : s.canSend = true := canSend_iff.mpr ⟨hs, htx⟩
  have hblk (hcur : s.disp.curCmd = none) : s.disp.curCmd ≠ some .sendBlk := by rw [hcur]; nofun
  refine ⟨fun body htx hsched => congrArg Host.Outcome.next (rejectLine_quiet (hcan htx) hsched),
    fun d htx hsched => ?_, fun bad hbad hcur hsched => ?_,
    fun junk rest hrx hjunk hresume hcur => ⟨fun body b htx hsched => ?_, fun bad hbad hsched => ?_⟩⟩
  · rw [← rejectLine_quiet (hcan htx) hsched]
    exact ⟨exec_setWriteMode_rejected, exec_timeouts_rejected⟩
  · rw [exec_resync_term hbad, run_of_sched (s := s.toCleanup) hsched,
      runTurns_cleanup s.toCleanup ts rfl hs (.inl (hblk hcur))]
    rfl
  · exact congrArg Host.Outcome.next ((run_of_sched (s := s.goto (.put _ .resync)) hsched).trans
      (runTurns_nak_resync (hcan htx) hresume (hblk hcur) hrx hjunk))
  · rw [exec_resync_other hbad, run_of_sched (s := s.goto .resync) hsched,
      runTurns_resync hs hresume (hblk hcur) hrx hjunk]

end Sys2Proof.Machine
end

section
/-! PROOF. What a run writes of the bus and of the transfer context (R27, R171 to R215): the positions that an
instruction of a given reach comes to, and what the foreground steps there leave as it was. -/

namespace Sys2Proof.Machine

/-- What an instruction that sends no block acts on. -/
inductive Reach where
  /-- The host channels alone. -/
  | host
  /-- The outputs and the role as well. -/
  | bus
  /-- The outputs, the role and the direction of the transfer. -/
  | receive

/-- The positions an instruction of a reach comes to. Those of a block-send and of a command that is being read are no
instruction's of the three; the drain, the leader and `ready` are where an instruction ends or begins. -/
def Pos.within (r : Reach) : Pos → Prop
  | .leader | .drain | .ready _ | .resync | .put _ .cleanup | .put _ .resync | .k1 | .k2 | .k3 => True
  | .g2 _ _ | .c1 _ _ | .src _ _ _ (.command _) | .c3 _ _ | .busReset _ _ => r ≠ .host
  | .w2 | .w3 | .y1 | .y2 | .y2f _ | .y3 | .y4 _ | .y6 | .y7 | .y8 _ | .y9 | .put _ .nullByte | .put _ .rawByte =>
    r ≠ .host
  | .v2 | .v3 | .l0 | .l1 | .l2 | .l2f _ | .l3 | .l4 _ _ | .l6 _ | .l7 _ | .l8 _ _ | .l9 _ => r = .receive
  | .put _ .blockStart | .put _ (.captured _) | .put _ (.blockEnd _) => r = .receive
  | .body | .item | .d2 | .d3 | .b0 | .b3 _ | .put _ .item | .src _ _ _ (.data _) | .src _ _ _ .last => False

/-- The foreground, not suspended, has come from `s` to `t` within the reach. With the power off the role is not kept,
since the implicit power-on writes it (R289); so that the power stays on is part of what is kept. -/
structure Within (r : Reach) (s t : State) : Prop where
  pos : t.pos.within r
  awake : t.abt.suspended = false
  xfer : t.xfer = { s.xfer with dir := t.xfer.dir }
  dir : r ≠ .receive → t.xfer.dir = s.xfer.dir
  bus : r = .host → t.out = s.out ∧ (s.sess.powered = true → t.sess.powered = true ∧ t.sess.role = s.sess.role)

variable {r : Reach} {s t u : State}

/-- Where an instruction begins, nothing but its command and the position is written. -/
theorem Within.begin {d : Dispatcher} {p : Pos} (hs : s.abt.suspended = false) (hp : p.within r) :
    Within r s { s with disp := d, pos := p } :=
  ⟨hp, hs, rfl, fun _ => rfl, fun _ => ⟨rfl, fun h => ⟨h, rfl⟩⟩⟩

theorem Within.xfer_eq (h : Within r s t) (hr : r ≠ .receive) : t.xfer = s.xfer := by
  rw [h.xfer, h.dir hr]

/-- Where the bus may be acted on, a step that leaves the transfer context. -/
theorem Within.acts (h : Within r s t) (hr : r ≠ .host) (hp : u.pos.within r) (ha : u.abt.suspended = t.abt.suspended)
    (hx : u.xfer = t.xfer) : Within r s u where
  pos := hp
  awake := ha.trans h.awake
  xfer := by rw [hx]; exact h.xfer
  dir := by rw [hx]; exact h.dir
  bus hh := absurd hh hr

theorem Reach.ne_host_of_receive (hr : r = .receive) : r ≠ .host := by
  rw [hr]
  nofun

/-! ## The operations -/

theorem Within.toCleanup (h : Within r s t) : Within r s t.toCleanup := { h with pos := trivial }

theorem Within.replyWith (bs : List Byte) (h : Within r s t) : Within r s (t.replyWith bs) := by
  cases bs with
  | nil => exact h.toCleanup
  | cons b rest => exact { h with pos := trivial }

theorem Within.finish (w : Result) (hr : r ≠ .host) (h : Within r s t) : Within r s (finish w t) := by
  rcases finish_cases w t with ⟨-, he⟩ | ⟨b, -, -, he⟩ | ⟨b, -, -, he⟩ <;> rw [he]
  · exact h.toCleanup
  · exact { h with pos := hr }
  · exact { h with pos := trivial }

theorem Within.receiveFin (w : Result) (hr : r = .receive) (h : Within r s t) : Within r s (receiveFin w t) := by
  unfold Machine.receiveFin
  split
  · exact h.finish _ (Reach.ne_host_of_receive hr)
  · exact { h with pos := hr }

theorem Within.putDone {bs : List Byte} (k : PutReturn) (sent : Bool) (hk : (Pos.put bs k).within r)
    (h : Within r s t) : Within r s (putDone k sent t) := by
  cases k with
  | cleanup => exact h.toCleanup
  | resync => exact { h with pos := trivial }
  | item => exact hk.elim
  | blockEnd w => exact h.finish _ (Reach.ne_host_of_receive hk)
  | nullByte => exact Within.finish .ok hk { h with }
  | blockStart | captured _ =>
    cases sent with
    | true => exact { h with pos := hk }
    | false => exact h.receiveFin .suspended hk
  | rawByte =>
    cases sent with
    | true => exact { h with pos := hk }
    | false => exact h.finish .suspended hk

theorem Within.putStep (bs : List Byte) (k : PutReturn) (hk : (Pos.put bs k).within r) (h : Within r s t) :
    Within r s (putStep bs k t) := by
  cases bs with
  | nil => exact h.putDone k true hk
  | cons b rest =>
    unfold Machine.putStep
    rcases hostPut_cases b t with ⟨-, hput⟩ | ⟨-, -, hput⟩ | ⟨-, -, hput⟩ <;> simp only [hput]
    · exact h.putDone k false hk
    · exact h
    · split
      · exact Within.putDone k true hk { h with }
      · exact { h with pos := by cases k <;> exact hk }

/-- A bus wait stamps at most the reason (R171). -/
theorem Within.polling (cond : Bool) (q : Reason) (c : Bool) {k : Result → State → State} (h : Within r s t)
    (hk : ∀ w u, Within r s u → Within r s (k w u)) : Within r s (polling (wait cond q c t) t k) := by
  rcases wait_cases cond q c t with ⟨-, hw⟩ | ⟨-, -, hw⟩ | ⟨-, -, -, hw⟩ | ⟨-, -, -, -, -, hw⟩ | ⟨-, -, -, -, hw⟩ <;>
    rw [hw]
  · exact hk _ _ h
  · exact hk _ _ { h with }
  · exact hk _ _ { h with }
  · exact hk _ _ h
  · exact h

theorem Within.srcStep (st : SrcStep) (b : Byte) (eoi : Bool) (k : SrcReturn) (hk : (Pos.src st b eoi k).within r)
    (h : Within r s t) : Within r s (srcStep st b eoi k t) := by
  cases k with
  | data _ | last => exact hk.elim
  | command release =>
    cases st with
    | s2 | s3 | s6 => exact h.polling _ _ _ fun w u hu => by cases w <;> exact { hu with pos := hk }
    | s4 => cases eoi <;> exact h.acts hk hk rfl rfl
    | _ => exact h.acts hk hk rfl rfl

theorem Within.resyncStep (h : Within r s t) : Within r s (resyncStep t) := by
  unfold Machine.resyncStep
  rcases hostGet_cases t with ⟨-, hg⟩ | ⟨-, -, hg⟩ | ⟨b, rest, -, -, hg⟩ <;> simp only [hg]
  · exact h.toCleanup
  · split
    · rcases srqPoll_cases t with he | he | he <;> rw [he]
      · exact h
      · exact { h with }
      · exact { h with }
    · exact h
  · have hr : Within r s (State.resumed { t with rx := rest }) := by
      rcases resumed_eq { t with rx := rest } with he | he <;> rw [he] <;> exact { h with }
    split
    · exact hr.toCleanup
    · exact hr

/-- The first line of a command that sources or accepts bytes (R281, R285, R286). -/
theorem Within.needTalker {p : Pos} (hr : r ≠ .host) (hp : p.within r) (h : Within r s t) :
    Within r s (t.needTalker.goto p) := by
  unfold State.needTalker
  split <;> exact h.acts hr hp rfl rfl

theorem Within.needListener {p : Pos} (hr : r ≠ .host) (hp : p.within r) (h : Within r s t) :
    Within r s (t.needListener.goto p) := by
  unfold State.needListener
  split <;> exact h.acts hr hp rfl rfl

/-! ## One foreground step -/

theorem Within.fg (h : Within r s t) : Within r s (fg t) := by
  have hp := h.pos
  unfold Machine.fg
  cases hpos : t.pos <;> rw [hpos] at hp
  case leader | drain | ready => exact h
  case body | item | d2 | d3 | b0 | b3 => exact hp.elim
  case resync => exact h.resyncStep
  case put bs k => exact h.putStep bs k hp
  case src st b eoi k => exact h.srcStep st b eoi k hp
  case g2 | c1 | w2 | w3 | y1 | y3 | y4 | y6 => exact h.acts hp hp rfl rfl
  case c3 w release =>
    refine Within.finish w hp ?_
    split
    · exact h
    · exact h.acts hp h.pos rfl rfl
  case busReset st reply =>
    cases st with
    | z1 | z2 => exact h.acts hp hp rfl rfl
    | z3 => exact Within.replyWith [reply] (h.acts hp h.pos rfl rfl)
  case y2f w =>
    simp only [receiveByteY2Failed]
    split
    · exact Within.finish .suspended hp (h.acts hp h.pos rfl rfl)
    · exact h.acts hp hp rfl rfl
  case y8 w =>
    simp only [receiveByteY8]
    split
    · exact h.acts hp hp rfl rfl
    · exact Within.finish w hp (h.acts hp h.pos rfl rfl)
  case y9 => exact Within.finish .ok hp { h with }
  case v2 | v3 | l1 | l3 | l4 | l6 => exact h.acts (Reach.ne_host_of_receive hp) hp rfl rfl
  case l0 =>
    exact {
      pos := hp
      awake := h.awake
      xfer := congrArg (fun x : Transfer => { x with dir := .receive }) h.xfer
      dir := fun hr => absurd hp hr
      bus := fun hr => absurd hr (Reach.ne_host_of_receive hp) }
  case l2 | y2 =>
    refine h.polling _ _ _ fun w u hu => ?_
    split <;> exact { hu with pos := hp }
  case l2f w => exact Within.receiveFin w hp (h.acts (Reach.ne_host_of_receive hp) h.pos rfl rfl)
  case l7 | y7 => exact h.polling _ _ _ fun w u hu => { hu with pos := hp }
  case l8 w eoi =>
    simp only [receiveL8]
    split
    · exact h.acts (Reach.ne_host_of_receive hp) hp rfl rfl
    · exact Within.receiveFin w hp (h.acts (Reach.ne_host_of_receive hp) h.pos rfl rfl)
  case l9 eoi =>
    simp only [receiveL9]
    split
    · exact Within.receiveFin .ok hp { h with }
    · exact { h with pos := hp }
  case k1 => exact { h with pos := trivial }
  case k2 =>
    simp only [cleanupK2]
    split <;> exact { h with pos := trivial }
  case k3 =>
    rw [cleanupK3_awake h.awake]
    exact { h with pos := trivial, awake := rfl }

theorem Within.act (e : Event) (he : e.undisturbed = true) (h : Within r s t) : Within r s (e.act t) := by
  cases e with
  | suspend | por => cases he
  | hostByte _ | rxFlush | inputs _ => exact { h with }
  | tick =>
    obtain ⟨bc, tc, f, htick⟩ := tick_frame t
    show Within r s (tick t)
    rw [htick]
    exact { h with }

end Sys2Proof.Machine
end

section
/-! PROOF. The frames of the instructions (R27, R254, R292, R314, R315): each but a block-send acts on what its reach
says and on nothing further, in every run that neither a suspend nor a power-on reset disturbs. -/

namespace Sys2Proof.Machine

variable {r : Reach} {s t u : State}

/-- The reach of an instruction (R27); a block-send and its items have none of the three. -/
def reachOf : Instr → Option Reach
  | .pwron | .setWriteMode _ | .setByteTimeout _ | .setTotalTimeout _ | .setFirstTimeout _ | .setRen _ | .setSrq _
  | .ident _ | .status | .syntaxError _ | .resync _ => some .host
  | .busCmdRelease _ | .busCmdHold _ | .recvByte | .busRst | .pwrOff => some .bus
  | .recvBlk => some .receive
  | .blk | .escStart | .escEsc | .escEnd | .escChk | .escOther _ | .literal _ => none

theorem reach_of_leavesTheBus {i : Instr} (hi : leavesTheBus i = true) : reachOf i = some .host := by
  cases i <;> trivial

section
variable (hts : EventsIn (fun e => e.undisturbed = true) s.sched) (hs : s.abt.suspended = false)
include hts

theorem Within.beginTurns {line : State → State} (first : ∀ t, Within r s t → Within r s (line t)) (h : Within r s t) :
    Within r s (beginTurns line s.sched t) :=
  beginTurns_keepsIn (fun e _ he h => h.act e he) (fun _ h => h.fg) (fun _ _ h => { h with })
    (fun t _ h => first t h) hts h

theorem Within.run (h : Within r s u) (hsched : u.sched = s.sched) : Within r s u.run :=
  runTurns_keepsIn (fun e _ he h => h.act e he) (fun _ h => h.fg) (fun _ _ h => { h with }) (hsched ▸ hts) h

include hs

/-- A command reaches what its first line reaches; the implicit power-on writes the role only with the power off. -/
theorem execute_within (i : Instr) (c : Command) {line : State → State}
    (first : ∀ t, Within r s t → Within r s (line t)) : Within r s (execute i c line s) := by
  refine Within.beginTurns hts (fun t h => ?_) (.begin hs trivial)
  unfold poweredLine
  split
  case isTrue => exact first t h
  case isFalse hoff =>
    exact { h with bus := fun hr => ⟨(h.bus hr).1, fun hon => absurd ((h.bus hr).2 hon).1 hoff⟩ }

theorem rejectLine_within : Within r s (rejectLine s) :=
  Within.run hts (.begin hs trivial) rfl

/-- Every instruction but a block-send and its items stays within its reach. -/
theorem exec_within {i : Instr} (hi : reachOf i = some r) : ∃ t, exec i s = .next t ∧ Within r s t := by
  cases i with
  | pwron | ident _ | status => exact ⟨_, rfl, execute_within hts hs _ _ fun _ h => h.replyWith _⟩
  | setRen _ | setSrq _ => exact ⟨_, rfl, execute_within hts hs _ _ fun _ h => Within.replyWith _ { h with }⟩
  | setWriteMode _ | setByteTimeout _ | setTotalTimeout _ | setFirstTimeout _ =>
    simp only [exec, execSetWriteMode, execSetByteTimeout, execSetTotalTimeout, execSetFirstTimeout]
    split
    · exact ⟨_, rfl, execute_within hts hs _ _ fun _ h => Within.replyWith _ { h with }⟩
    · exact ⟨_, rfl, rejectLine_within hts hs⟩
  | syntaxError bad =>
    cases bad with
    | line _ => exact ⟨_, rfl, rejectLine_within hts hs⟩
    | oversized _ _ => exact ⟨_, rfl, Within.run hts (.begin hs trivial) rfl⟩
  | resync bad =>
    simp only [exec, execResync]
    split <;> exact ⟨_, rfl, Within.run hts (.begin hs trivial) rfl⟩
  | busCmdRelease _ | busCmdHold _ =>
    cases hi
    exact ⟨_, rfl, execute_within hts hs _ _ fun _ h => h.needTalker nofun nofun⟩
  | recvByte =>
    cases hi
    exact ⟨_, rfl, execute_within hts hs _ _ fun _ h => h.needListener nofun nofun⟩
  | busRst =>
    cases hi
    exact ⟨_, rfl, execute_within hts hs _ _ fun _ h => h.acts nofun nofun rfl rfl⟩
  | pwrOff =>
    cases hi
    exact ⟨_, rfl, Within.beginTurns hts (fun _ h => h.acts nofun trivial rfl rfl) (.begin hs trivial)⟩
  | recvBlk =>
    cases hi
    exact ⟨_, rfl, execute_within hts hs _ _ fun _ h => h.needListener nofun rfl⟩
  | blk | escStart | escEsc | escEnd | escChk | escOther _ | literal _ => cases hi

theorem within_of_exec {i : Instr} (hi : reachOf i = some r) (ht : exec i s = .next t) : Within r s t := by
  obtain ⟨u, hu, h⟩ := exec_within hts hs hi
  cases hu.symm.trans ht
  exact h

end

/-- Settles O34: each instruction by its reach. -/
theorem framesOfTheBus : Obligations.FramesOfTheBus := by
  unfold Obligations.FramesOfTheBus
  intro s t hsched hs
  have within {r : Reach} {i : Instr} (hi : reachOf i = some r) (ht : exec i s = .next t) : Within r s t :=
    within_of_exec (eventsIn_of_all hsched) hs hi ht
  refine ⟨fun i hi ht => ?_, fun b ht => ?_, fun ht => (within rfl ht).xfer⟩
  · have h := within (reach_of_leavesTheBus hi) ht
    obtain ⟨hout, hrole⟩ := h.bus rfl
    exact ⟨hout, h.xfer_eq nofun, fun hon => (hrole hon).2⟩
  · have h : Within .bus s t := by
      obtain ht | ht | ht | ht | ht := ht <;> exact within rfl ht
    exact h.xfer_eq nofun

end Sys2Proof.Machine
end

section
/-! PROOF. The exceptions that come from outside an operation: the service-request poll (R335, R336), the suspend event
and the resume (R340, R342), and that no input stops CORE (R320). -/

namespace Sys2Proof.Machine

variable {s : State}

/-! ## The service-request poll (R335) -/

theorem srqPoll_unmonitored (h : ¬(s.sess.powered = true ∧ s.sess.srqMonitor = true)) : srqPoll s = s := by
  rw [srqPoll, if_neg (by rwa [Bool.and_eq_true])]

section
variable (hpow : s.sess.powered = true) (hmon : s.sess.srqMonitor = true)
include hpow hmon

theorem srqPoll_released (hsrq : s.inp.lines.srq = false) :
    srqPoll s = { s with disp := { s.disp with srqLatched := false } } := by
  simp [srqPoll, State.srqIn, hpow, hmon, hsrq]

theorem srqPoll_asserted (hsrq : s.inp.lines.srq = true) :
    srqPoll s = if s.disp.srqLatched = false ∧ s.inp.txFull = false then
      { s with tx := s.tx ++ [s.cfg.srqNotify], disp := { s.disp with srqLatched := true } } else s := by
  simp [srqPoll, State.srqIn, State.push, hpow, hmon, hsrq]

/-- No second notification while the latch is set, and none into a full queue. -/
theorem srqPoll_silent (hsrq : s.inp.lines.srq = true) (h : ¬(s.disp.srqLatched = false ∧ s.inp.txFull = false)) :
    srqPoll s = s := by
  rw [srqPoll_asserted hpow hmon hsrq, if_neg h]

end

/-- Settles O16: off or unmonitored, the line released, the line asserted. -/
theorem srqPollRule : Obligations.SrqPollRule := by
  unfold Obligations.SrqPollRule
  exact fun s => ⟨srqPoll_unmonitored, srqPoll_released, srqPoll_asserted⟩

/-! ## The suspend event and the resume (R340, R342) -/

theorem resumed_of_pending (h : s.abt.resumePending = true) :
    s.resumed =
      { s with
        tmo := { s.tmo with tickArmed := true, byteCtr := 0#16, totalCtr := 0#16 }
        abt := { s.abt with resumePending := false } } := if_pos h

/-- Settles O20: the event is one group of writes; the byte is taken and then the resume is done. -/
theorem suspendAndResume : Obligations.SuspendAndResume := by
  unfold Obligations.SuspendAndResume
  refine ⟨fun _ => rfl, fun s b rest hs hpend hrx => ?_⟩
  rw [hostGet_byte hs hrx, resumed_of_pending (s := { s with rx := rest }) hpend]

/-! ## No input stops CORE (R320) -/

theorem Begins.next {o : Host.Outcome State Fault Refusal} (h : Begins s o) : ∃ t, o = .next t := by
  cases h with
  | run u _ _ => exact ⟨_, rfl⟩
  | execute line u _ _ => exact ⟨_, rfl⟩

theorem exec_next (i : Instr) (s : State) : ∃ t, exec i s = .next t := (exec_begins i s).next

/-- Settles O25: an instruction begins by a run or by the turns of `Execute` (`exec_begins`); a step is an instruction,
or a fetch or a run that has a next state (`step_cases`). -/
theorem stepNeverStops : Obligations.StepNeverStops := by
  unfold Obligations.StepNeverStops
  refine ⟨exec_next, fun s => ?_⟩
  rcases step_cases s with ⟨i, -, h⟩ | ⟨-, i, u, -, h⟩ | ⟨-, u, -, h⟩ | ⟨-, u, -, h⟩ | ⟨-, h⟩ <;> rw [h]
  · exact exec_next i s
  · exact exec_next i u
  · exact ⟨_, rfl⟩
  · exact ⟨_, rfl⟩
  · exact ⟨_, rfl⟩

end Sys2Proof.Machine
end

section
/-! PROOF. While CORE idles one assertion gives one notification (R252, R336). A second service-request poll of the same
levels changes nothing, so any number of idle turns do what the first does. -/

namespace Sys2Proof.Machine

variable {s : State}

theorem srqPoll_tx (s : State) :
    (srqPoll s).tx = s.tx ++ (if s.sess.powered = true ∧ s.sess.srqMonitor = true ∧ s.inp.lines.srq = true
      ∧ s.disp.srqLatched = false ∧ s.inp.txFull = false then [s.cfg.srqNotify] else []) := by
  by_cases hon : s.sess.powered = true ∧ s.sess.srqMonitor = true
  case neg =>
    rw [srqPoll_unmonitored hon, if_neg fun ⟨hpow, hmon, _⟩ => hon ⟨hpow, hmon⟩, List.append_nil]
  case pos =>
    obtain ⟨hpow, hmon⟩ := hon
    cases hsrq : s.inp.lines.srq with
    | false => simp [srqPoll_released hpow hmon hsrq]
    | true =>
      rw [srqPoll_asserted hpow hmon hsrq]
      split <;> simp_all

/-- A poll settles the latch. -/
theorem srqPoll_srqPoll (s : State) : srqPoll (srqPoll s) = srqPoll s := by
  by_cases hon : s.sess.powered = true ∧ s.sess.srqMonitor = true
  case neg => rw [srqPoll_unmonitored hon, srqPoll_unmonitored hon]
  case pos =>
    obtain ⟨hpow, hmon⟩ := hon
    cases hsrq : s.inp.lines.srq with
    | false =>
      rw [srqPoll_released hpow hmon hsrq]
      exact srqPoll_released (s := { s with disp := _ }) hpow hmon hsrq
    | true =>
      by_cases hsend : s.disp.srqLatched = false ∧ s.inp.txFull = false
      case pos =>
        rw [srqPoll_asserted hpow hmon hsrq, if_pos hsend]
        exact srqPoll_silent hpow hmon hsrq (by simp)
      case neg => rw [srqPoll_silent hpow hmon hsrq hsend, srqPoll_silent hpow hmon hsrq hsend]

/-- The leader is polled with nothing to take. -/
structure State.PollsIdle (s : State) : Prop where
  pos : s.pos = .leader
  phase : s.disp.phase = .awaitLeader
  leaderIdx : s.disp.leaderIdx = 0
  awake : s.abt.suspended = false
  empty : s.rx = []

theorem State.PollsIdle.srqPoll (h : s.PollsIdle) : (srqPoll s).PollsIdle := by
  rcases srqPoll_cases s with he | he | he <;> rw [he]
  · exact h
  · exact { h with }
  · exact { h with }

theorem State.PollsIdle.fetchPoll (h : s.PollsIdle) : fetchPoll s = .more (Machine.srqPoll s) := by
  simp only [Machine.fetchPoll, hostGet_empty h.awake h.empty, if_pos (And.intro h.phase h.leaderIdx)]

/-- Any number of idle turns, at least one, make one service-request poll's difference. -/
theorem State.PollsIdle.fetchTurns (h : s.PollsIdle) (k : Nat) :
    fetchTurns (quietTurns (k + 1)) s = .more { Machine.srqPoll s with sched := [] } := by
  induction k generalizing s with
  | zero => exact fetchTurns_quiet_more [] h.fetchPoll
  | succ k ih => rw [quietTurns_succ, fetchTurns_quiet_more _ h.fetchPoll, ih h.srqPoll, srqPoll_srqPoll]

theorem step_more {s' : State} (hp : s.pos = .leader) (h : fetchTurns s.sched s = .more s') : step s = .next s' := by
  simp only [step, hp, h]
  rfl

/-- Settles O17: no turn, or the one poll that any number of turns come to. -/
theorem oneNotificationPerAssertion : Obligations.OneNotificationPerAssertion := by
  unfold Obligations.OneNotificationPerAssertion
  intro s k hidle hrx hsched
  simp only [State.idle, Bool.and_eq_true, beq_iff_eq, Bool.not_eq_true', and_assoc] at hidle
  obtain ⟨hpos, hphase, hleader, -, -, hawake, -, -⟩ := hidle
  have hpolls : s.PollsIdle := ⟨hpos, hphase, hleader, hawake, hrx⟩
  cases k with
  | zero =>
    refine ⟨{ s with sched := [] }, step_more hpos (by rw [hsched]; rfl), hpos, ?_⟩
    rw [if_neg fun ⟨hk, _⟩ => absurd hk (Nat.lt_irrefl 0), List.append_nil]
  | succ k =>
    refine ⟨{ srqPoll s with sched := [] }, step_more hpos (by rw [hsched]; exact hpolls.fetchTurns k),
      hpolls.srqPoll.pos, ?_⟩
    simpa only [Nat.zero_lt_succ, true_and] using srqPoll_tx s

end Sys2Proof.Machine
end

section
/-! PROOF. A pending suspend brings the foreground nearer to the leader with every step (R171, R264, R265, R343): how
many turns are left at each position, where a bus wait ends at once and a `HostPut` is abandoned. -/

namespace Sys2Proof.Machine

/-! ## The turns that are left -/

/-- The turns from `Finish` to the leader (R264): `Cleanup` is three, a reply before it one, a bus reset three more. -/
def Result.turnsLeft : Result → Nat
  | .suspended => 3
  | .ok | .cancelled => 4
  | .failed _ => 7

/-- The turns from the end of `SrcHandshake` to the leader, or to the block-send's next `HostGet`. -/
def SrcReturn.turnsLeft (k : SrcReturn) (w : Result) : Nat :=
  match k with
  | .command _ => w.turnsLeft + 1
  | .data _ => w.turnsLeft
  | .last => w.turnsLeft

/-- The same from a step of `SrcHandshake`, with NRFD and NDAC as they are sensed. The levels are steady in quiet turns,
so a listener that S2 finds by its NDAC alone is one that S6 does not find to have accepted. -/
def SrcStep.turnsLeft (nrfd ndac : Bool) (k : SrcReturn) : SrcStep → Nat
  | .s1 => k.turnsLeft .suspended + 7
  | .s2 => k.turnsLeft .suspended + 6
  | .s3 =>
    if nrfd then k.turnsLeft .suspended + 2
    else if ndac then k.turnsLeft .suspended + 5
    else k.turnsLeft .ok + 6
  | .s4 => if ndac then k.turnsLeft .suspended + 4 else k.turnsLeft .ok + 5
  | .s5 => if ndac then k.turnsLeft .suspended + 3 else k.turnsLeft .ok + 4
  | .s6 => if ndac then k.turnsLeft .suspended + 2 else k.turnsLeft .ok + 3
  | .s7 => k.turnsLeft .ok + 2
  | .s8 => k.turnsLeft .ok + 1
  | .sf w => k.turnsLeft w + 1

/-- The same from a sequence of `HostPut`s: it is abandoned, unless nothing is left to put. -/
def PutReturn.turnsLeft : PutReturn → List Byte → Nat
  | .cleanup, _ => 4
  | .resync, _ | .nullByte, _ => 5
  | .item, _ => 1
  | .blockEnd w, _ => w.turnsLeft + 1
  | .blockStart, [] | .rawByte, [] => 9
  | .captured _, [] => 13
  | .blockStart, _ :: _ | .captured _, _ :: _ | .rawByte, _ :: _ => 4

/-- With a suspend pending, the most turns from a position to the leader, or to the `HostGet` of a block-send. -/
def Pos.turnsLeft (nrfd ndac : Bool) : Pos → Nat
  | .leader | .body | .item | .drain | .ready _ => 0
  | .resync => 4
  | .put bs k => k.turnsLeft bs
  | .g2 _ _ => 13
  | .c1 _ _ => 12
  | .src st _ _ k => st.turnsLeft nrfd ndac k
  | .c3 w _ => w.turnsLeft + 1
  | .d2 => 3
  | .d3 => 2
  | .b0 | .b3 _ => 1
  | .v2 => 7
  | .v3 => 6
  | .l0 => 5
  | .l1 => 8
  | .l2 => 7
  | .l2f w => w.turnsLeft + 2
  | .l3 => 6
  | .l4 _ _ => 5
  | .l6 _ => 12
  | .l7 _ => 11
  | .l8 w _ => if w = .ok then 10 else w.turnsLeft + 2
  | .l9 _ => 9
  | .w2 => 10
  | .w3 => 9
  | .y1 => 8
  | .y2 => 7
  | .y2f w => if w = .suspended then 4 else 6
  | .y3 => 6
  | .y4 _ => 5
  | .y6 => 8
  | .y7 => 7
  | .y8 w => if w = .ok then 6 else w.turnsLeft + 1
  | .y9 => 5
  | .busReset .z1 _ => 7
  | .busReset .z2 _ => 6
  | .busReset .z3 _ => 5
  | .k1 => 3
  | .k2 => 2
  | .k3 => 1

def State.turnsLeft (s : State) : Nat := s.pos.turnsLeft s.nrfdIn s.ndacIn

theorem Result.turnsLeft_le (w : Result) : w.turnsLeft ≤ 7 := by
  cases w <;> exact Nat.le_of_ble_eq_true rfl

theorem SrcReturn.turnsLeft_le (k : SrcReturn) (w : Result) : k.turnsLeft w ≤ w.turnsLeft + 1 := by
  cases k with
  | command _ => exact Nat.le_refl _
  | data _ | last => exact Nat.le_succ _

theorem SrcStep.turnsLeft_le (nrfd ndac : Bool) (k : SrcReturn) (st : SrcStep) : st.turnsLeft nrfd ndac k ≤ 11 := by
  have hok : k.turnsLeft .ok ≤ 5 := k.turnsLeft_le .ok
  have hsusp : k.turnsLeft .suspended ≤ 4 := k.turnsLeft_le .suspended
  cases st with
  | sf w =>
    have hw := Nat.le_trans (k.turnsLeft_le w) (Nat.succ_le_succ w.turnsLeft_le)
    exact Nat.le_trans (Nat.succ_le_succ hw) (by decide)
  | _ =>
    simp only [SrcStep.turnsLeft]
    (repeat' split) <;> omega

theorem PutReturn.turnsLeft_le (k : PutReturn) (bs : List Byte) : k.turnsLeft bs ≤ 13 := by
  cases k with
  | blockEnd w => exact Nat.le_trans (Nat.succ_le_succ w.turnsLeft_le) (by decide)
  | _ => cases bs <;> exact Nat.le_of_ble_eq_true rfl

/-- From anywhere thirteen turns are enough; a command that is only parsed may need two more (R259, R260). -/
theorem State.turnsLeft_le (s : State) : s.turnsLeft ≤ 13 := by
  unfold State.turnsLeft
  cases s.pos with
  | put bs k => exact k.turnsLeft_le bs
  | src st b eoi k => exact Nat.le_trans (SrcStep.turnsLeft_le _ _ k st) (by decide)
  | c3 w _ | l2f w => exact Nat.le_trans (Nat.add_le_add_right w.turnsLeft_le _) (by decide)
  | l8 w _ | y8 w | y2f w =>
    simp only [Pos.turnsLeft]
    have hw := w.turnsLeft_le
    split <;> omega
  | busReset st _ => cases st <;> exact Nat.le_of_ble_eq_true rfl
  | _ => exact Nat.le_of_ble_eq_true rfl

/-- The positions of a block-send from D2 on at which it may come to its `HostGet` (R190). -/
def Pos.sendsBlock : Pos → Bool
  | .d2 | .d3 | .b0 | .item | .b3 _ | .put _ .item | .src _ _ _ (.data _) => true
  | _ => false

/-- The foreground is nearer to the leader than `n` turns; it awaits no instruction, but for an item of a block-send
where one was being sent (`sends`). -/
structure Nearer (n : Nat) (sends : Bool) (t : State) : Prop where
  turns : t.turnsLeft < n
  fetch : t.pos.isFetch = true → t.pos = .item
  sends : t.pos.sendsBlock = true → sends = true

variable {n : Nat} {sends eoi : Bool} {s : State} {st : SrcStep} {b : Byte}

/-! ## Where an operation ends -/

theorem nearer_toCleanup (hn : 3 < n) : Nearer n sends s.toCleanup := ⟨hn, nofun, nofun⟩

theorem nearer_finish {w : Result} (hn : w.turnsLeft < n) : Nearer n sends (finish w s) := by
  cases w with
  | suspended => exact nearer_toCleanup hn
  | ok | cancelled => exact ⟨hn, nofun, nofun⟩
  | failed r =>
    have hreply : 4 < n := Nat.lt_of_le_of_lt (by decide : 4 ≤ 7) hn
    cases r with
    | noData | frameError => exact ⟨hreply, nofun, nofun⟩
    | _ => exact ⟨hn, nofun, nofun⟩

theorem nearer_receiveReturned (w : Result) : Nearer (w.turnsLeft + 1) sends (receiveReturned w s) := by
  cases w <;> exact nearer_finish (Nat.lt_succ_self _)

theorem nearer_receiveFin {w : Result} (hn : w.turnsLeft + 1 < n) : Nearer n sends (receiveFin w s) := by
  unfold receiveFin
  split
  case isTrue hw =>
    subst hw
    exact nearer_toCleanup (Nat.lt_of_succ_lt hn)
  case isFalse => exact ⟨hn, nofun, nofun⟩

/-! ## Waits and `HostPut`s -/

/-- With a suspend pending a bus wait ends, by its condition or by the suspend. -/
theorem nearer_polling {cond : Bool} (r : Reason) (c : Bool) {k : Result → State → State}
    (hs : s.abt.suspended = true) (hok : cond = true → Nearer n sends (k .ok s))
    (hsusp : cond = false → Nearer n sends (k .suspended (s.stamp (some r)))) :
    Nearer n sends (polling (wait cond r c s) s k) := by
  rcases wait_cases cond r c s with ⟨hc, h⟩ | ⟨hc, -, h⟩ | ⟨-, hn, -⟩ | ⟨-, hn, -⟩ | ⟨-, hn, -⟩
  · rw [h]
    exact hok hc
  · rw [h]
    exact hsusp hc
  all_goals
    rw [hs] at hn
    cases hn

/-- With a byte left to put the sequence is abandoned. -/
theorem nearer_putDone_abandoned (b : Byte) (rest : List Byte) (k : PutReturn) :
    Nearer (k.turnsLeft (b :: rest)) (Pos.put (b :: rest) k).sendsBlock (putDone k false s) := by
  cases k with
  | cleanup | blockStart | captured _ | rawByte => exact nearer_toCleanup (Nat.lt_succ_self _)
  | blockEnd w => exact nearer_receiveReturned w
  | nullByte => exact nearer_finish (w := .ok) (Nat.lt_succ_self _)
  | resync => exact ⟨Nat.lt_succ_self _, nofun, nofun⟩
  | item => exact ⟨Nat.lt_succ_self _, fun _ => rfl, fun _ => rfl⟩

/-- With nothing left to put the sequence is completed. -/
theorem nearer_putDone_nothing (k : PutReturn) :
    Nearer (k.turnsLeft []) (Pos.put [] k).sendsBlock (putDone k true s) := by
  cases k with
  | cleanup => exact nearer_toCleanup (Nat.lt_succ_self _)
  | blockEnd w => exact nearer_receiveReturned w
  | nullByte => exact nearer_finish (w := .ok) (Nat.lt_succ_self _)
  | item => exact ⟨Nat.lt_succ_self _, fun _ => rfl, fun _ => rfl⟩
  | resync | blockStart | captured _ | rawByte => exact ⟨Nat.lt_succ_self _, nofun, nofun⟩

theorem nearer_putStep (bs : List Byte) (k : PutReturn) (hs : s.abt.suspended = true) :
    Nearer (k.turnsLeft bs) (Pos.put bs k).sendsBlock (putStep bs k s) := by
  cases bs with
  | nil => exact nearer_putDone_nothing k
  | cons b rest =>
    have hput : putStep (b :: rest) k s = putDone k false s := by simp only [putStep, hostPut, if_pos hs]
    rw [hput]
    exact nearer_putDone_abandoned b rest k

/-! ## `SrcHandshake` -/

theorem nearer_srcReturned (k : SrcReturn) :
    Nearer (k.turnsLeft .ok + 1) (Pos.src .s8 b eoi k).sendsBlock (srcReturned k s) := by
  cases k with
  | command _ => exact ⟨Nat.lt_succ_self _, nofun, nofun⟩
  | data _ => exact ⟨Nat.le_of_ble_eq_true rfl, nofun, fun _ => rfl⟩
  | last => exact nearer_finish (w := .ok) (Nat.lt_succ_self _)

theorem nearer_srcFailed (w : Result) (k : SrcReturn) :
    Nearer (k.turnsLeft w + 1) (Pos.src (.sf w) b eoi k).sendsBlock (srcFailed w k s) := by
  cases k with
  | command _ => exact ⟨Nat.lt_succ_self _, nofun, nofun⟩
  | data _ | last => exact nearer_finish (Nat.lt_succ_self _)

theorem sendsBlock_src (st st' : SrcStep) (b : Byte) (eoi : Bool) (k : SrcReturn)
    (h : (Pos.src st b eoi k).sendsBlock = true) : (Pos.src st' b eoi k).sendsBlock = true := by
  cases k <;> exact h

/-- Within the handshake the position goes from one step to another. -/
theorem nearer_src {st st' : SrcStep} {k : SrcReturn} (hp : s.pos = .src st b eoi k)
    (hn : st.turnsLeft s.nrfdIn s.ndacIn k < n) :
    Nearer n (Pos.src st' b eoi k).sendsBlock s where
  turns := by rwa [State.turnsLeft, hp]
  fetch := by
    rw [hp]
    nofun
  sends := by
    rw [hp]
    exact sendsBlock_src st st' b eoi k

/-- S2 goes on where one of the two lines is sensed. -/
theorem turnsLeft_s3_lt_s2 {nrfd ndac : Bool} (k : SrcReturn) (h : (nrfd || ndac) = true) :
    SrcStep.turnsLeft nrfd ndac k .s3 < SrcStep.turnsLeft nrfd ndac k .s2 := by
  cases nrfd with
  | true => exact Nat.add_lt_add_left (by decide : 2 < 6) _
  | false =>
    cases ndac with
    | true => exact Nat.lt_succ_self _
    | false => cases h

theorem turnsLeft_s4_lt_s3 (nrfd ndac : Bool) (k : SrcReturn) :
    SrcStep.turnsLeft nrfd ndac k .s4 < SrcStep.turnsLeft false ndac k .s3 := by
  cases ndac <;> exact Nat.lt_succ_self _

theorem turnsLeft_s5_lt_s4 (nrfd ndac : Bool) (k : SrcReturn) :
    SrcStep.turnsLeft nrfd ndac k .s5 < SrcStep.turnsLeft nrfd ndac k .s4 := by
  cases ndac <;> exact Nat.lt_succ_self _

theorem turnsLeft_s6_lt_s5 (nrfd ndac : Bool) (k : SrcReturn) :
    SrcStep.turnsLeft nrfd ndac k .s6 < SrcStep.turnsLeft nrfd ndac k .s5 := by
  cases ndac <;> exact Nat.lt_succ_self _

/-- A wait of the handshake that the suspend ends goes to SF. -/
theorem nearer_sf {r : Reason} {next : SrcStep} {k : SrcReturn} {m : Nat} (hm : 1 < m) :
    Nearer (k.turnsLeft .suspended + m) (Pos.src st b eoi k).sendsBlock
      (srcWaited next b eoi k .suspended (s.stamp (some r))) :=
  nearer_src rfl (Nat.add_lt_add_left hm _)

theorem nearer_srcStep (st : SrcStep) (k : SrcReturn) (hs : s.abt.suspended = true) :
    Nearer (st.turnsLeft s.nrfdIn s.ndacIn k) (Pos.src st b eoi k).sendsBlock (srcStep st b eoi k s) := by
  cases st with
  | s1 | s7 => exact nearer_src rfl (Nat.lt_succ_self _)
  | s2 =>
    exact nearer_polling _ _ hs (fun hc => nearer_src rfl (turnsLeft_s3_lt_s2 k hc)) fun _ => nearer_sf (by decide)
  | s3 =>
    refine nearer_polling _ _ hs (fun hc => nearer_src rfl ?_) fun hc => ?_
    · have hn : s.nrfdIn = false := by simpa using hc
      rw [hn]
      exact turnsLeft_s4_lt_s3 s.nrfdIn s.ndacIn k
    · have hn : s.nrfdIn = true := by simpa using hc
      rw [hn]
      exact nearer_sf (by decide)
  | s4 => cases eoi <;> exact nearer_src rfl (turnsLeft_s5_lt_s4 s.nrfdIn s.ndacIn k)
  | s5 => exact nearer_src rfl (turnsLeft_s6_lt_s5 s.nrfdIn s.ndacIn k)
  | s6 =>
    refine nearer_polling _ _ hs (fun hc => nearer_src rfl ?_) fun hc => ?_
    · have hd : s.ndacIn = false := by simpa using hc
      rw [hd]
      exact Nat.lt_succ_self _
    · have hd : s.ndacIn = true := by simpa using hc
      rw [hd]
      exact nearer_sf (by decide)
  | s8 => exact nearer_srcReturned k
  | sf w => exact nearer_srcFailed w k

/-! ## One step -/

/-- A step with a suspend pending, away from the last one of `Cleanup`. -/
theorem fg_nearer (hs : s.abt.suspended = true) (hf : s.pos.isFetch = false) (hk : s.pos ≠ .k3) :
    Nearer s.turnsLeft s.pos.sendsBlock (fg s) := by
  unfold State.turnsLeft fg
  cases hp : s.pos with
  | leader | body | item | drain | ready _ => rw [hp] at hf; cases hf
  | k3 => exact absurd hp hk
  | resync =>
    simp only [resyncStep, hostGet_suspended hs]
    exact nearer_toCleanup (Nat.lt_succ_self _)
  | put bs k => exact nearer_putStep bs k hs
  | src st b eoi k => exact nearer_srcStep st k hs
  | c3 w release => exact nearer_finish (Nat.lt_succ_self _)
  | b0 | b3 _ => exact ⟨Nat.lt_succ_self _, fun _ => rfl, fun _ => rfl⟩
  | d2 | d3 => exact ⟨Nat.lt_succ_self _, nofun, fun _ => rfl⟩
  | l2 | y2 | l7 _ | y7 =>
    exact nearer_polling _ _ hs (fun _ => ⟨Nat.lt_succ_self _, nofun, nofun⟩)
      fun _ => ⟨Nat.le_of_ble_eq_true rfl, nofun, nofun⟩
  | l2f w => exact nearer_receiveFin (Nat.lt_succ_self _)
  | l4 b eoi =>
    obtain ⟨x, rest, he⟩ := List.exists_cons_of_ne_nil (encPut_ne_nil s.cfg b)
    simp only [receiveL4, he]
    exact ⟨Nat.lt_succ_self _, nofun, nofun⟩
  | l8 w eoi =>
    simp only [receiveL8, Pos.turnsLeft]
    split
    · exact ⟨Nat.lt_succ_self _, nofun, nofun⟩
    · exact nearer_receiveFin (Nat.lt_succ_self _)
  | l9 eoi =>
    cases eoi with
    | true => exact nearer_receiveFin (w := .ok) (Nat.le_of_ble_eq_true rfl)
    | false => exact ⟨Nat.lt_succ_self _, nofun, nofun⟩
  | y2f w =>
    simp only [receiveByteY2Failed, Pos.turnsLeft]
    split
    · exact nearer_finish (w := .suspended) (Nat.lt_succ_self _)
    · exact ⟨Nat.lt_succ_self _, nofun, nofun⟩
  | y8 w =>
    simp only [receiveByteY8, Pos.turnsLeft]
    split
    · exact ⟨Nat.lt_succ_self _, nofun, nofun⟩
    · exact nearer_finish (Nat.lt_succ_self _)
  | y9 => exact nearer_finish (w := .ok) (Nat.lt_succ_self _)
  | busReset st reply => cases st <;> exact ⟨Nat.lt_succ_self _, nofun, nofun⟩
  | k2 =>
    simp only [cleanupK2_suspended hs]
    exact ⟨Nat.lt_succ_self _, nofun, nofun⟩
  | _ => exact ⟨Nat.lt_succ_self _, nofun, nofun⟩

end Sys2Proof.Machine
end

section
/-! PROOF. A suspend brings CORE from any position to off (R343 to R345, R355): a run in quiet turns by the turns that
are left (`fg_nearer`), a parsed command by its first line, a fetch by `SuspendAbandonsFetch`. -/

namespace Sys2Proof.Machine

/-- A suspend is pending and its resume to come; the host channels hold `h`. -/
structure Dozing (h : List Byte × List Byte) (s : State) : Prop where
  host : s.host = h
  suspended : s.abt.suspended = true
  resumePending : s.abt.resumePending = true
  disarmed : s.tmo.tickArmed = false

/-- CORE is off at the leader, the suspend done and its resume to come; the host channels hold `h`. -/
structure AtOff (h : List Byte × List Byte) (t : State) : Prop where
  host : t.host = h
  pos : t.pos = .leader
  off : t.isOff = true
  awake : t.abt.suspended = false
  resumePending : t.abt.resumePending = true
  disarmed : t.tmo.tickArmed = false

/-- Where quiet turns come to with a suspend pending: off, or, if a block was being sent, the `HostGet` of its next
item, which will find the suspend. -/
def Stops (h : List Byte × List Byte) (sends : Prop) (t : State) : Prop :=
  AtOff h t ∨ sends ∧ t.pos = .item ∧ Dozing h t

variable {h : List Byte × List Byte} {sends : Prop} {s t : State} {ts : List Turn}

/-- `SuspendCleanup` and the cycle start leave CORE off (R343, R251). -/
theorem Dozing.atOff (hs : Dozing h s) (ts : List Turn) : AtOff h { s.suspendCleanup.cycleStart with sched := ts } where
  host := hs.host
  pos := rfl
  off := by simp [State.isOff, State.suspendCleanup, State.powerOff, State.cycleStart, BusOut.released]
  awake := rfl
  resumePending := hs.resumePending
  disarmed := hs.disarmed

theorem Dozing.of_registers (hs : Dozing h s) (hhost : t.host = s.host) (hr : t.registers = s.registers) :
    Dozing h t := by
  simp only [State.registers, Registers.mk.injEq, Timers.mk.injEq] at hr
  obtain ⟨-, -, ⟨-, -, -, -, -, -, -, harmed⟩, hsusp, hpend, -⟩ := hr
  exact ⟨hhost.trans hs.host, hsusp.trans hs.suspended, hpend.trans hs.resumePending, harmed.trans hs.disarmed⟩

/-- A step that does not end `Cleanup` leaves the suspend pending and the host channels alone (R76). -/
theorem Dozing.fg (hs : Dozing h s) (hk : s.pos ≠ .k3) : Dozing h (fg s) := by
  have hhost : (Machine.fg s).host = s.host := (fg_hostMove s).host_of_suspended hs.suspended
  refine hs.of_registers hhost ?_
  by_cases hr : s.pos = .resync
  case pos => simp only [Machine.fg, hr, resyncStep, hostGet_suspended hs.suspended]; rfl
  case neg => exact (fg_registers s hr hk).registers

/-! ## A run -/

/-- The foreground is in the middle of an instruction, of a block-send only if `sends`. -/
structure Underway (sends : Prop) (t : State) : Prop where
  fetch : t.pos.isFetch = false
  sends : t.pos.sendsBlock = true → sends

/-- By induction over the turns: each step but K3 brings CORE nearer, and K3 is the end. -/
theorem Dozing.runTurns_of_turnsLeft_le {n : Nat} (hs : Dozing h s) (hu : Underway sends s) (hn : s.turnsLeft ≤ n) :
    Stops h sends (runTurns (quietTurns n ++ ts) s) := by
  induction n generalizing s with
  | zero =>
    by_cases hk : s.pos = .k3
    case pos =>
      rw [State.turnsLeft, hk] at hn
      cases hn
    case neg =>
      exact absurd (Nat.lt_of_lt_of_le (fg_nearer hs.suspended hu.fetch hk).turns hn) (Nat.not_lt_zero _)
  | succ n ih =>
    rw [quietTurns_succ, List.cons_append]
    by_cases hk : s.pos = .k3
    case pos =>
      rw [runTurns_k3 hk, cleanupK3_suspended hs.suspended]
      exact .inl (hs.atOff _)
    case neg =>
      obtain ⟨hturns, hfetch, hsends⟩ := fg_nearer hs.suspended hu.fetch hk
      have hnext := hs.fg hk
      rw [runTurns_quiet _ _ hu.fetch]
      cases hf : (Machine.fg s).pos.isFetch with
      | true =>
        have hitem := hfetch hf
        rw [runTurns_fetch _ _ hf]
        exact .inr ⟨hu.sends (hsends (by rw [hitem]; rfl)), hitem, { hnext with }⟩
      | false =>
        exact ih hnext ⟨hf, fun hp => hu.sends (hsends hp)⟩ (Nat.le_of_lt_succ (Nat.lt_of_lt_of_le hturns hn))

/-- Thirteen quiet turns are enough from anywhere in an instruction. -/
theorem Dozing.runTurns {n : Nat} (hs : Dozing h s) (hu : Underway sends s) (hn : 13 ≤ n) (ts : List Turn) :
    Stops h sends (Machine.runTurns (quietTurns n ++ ts) s) :=
  hs.runTurns_of_turnsLeft_le hu (Nat.le_trans s.turnsLeft_le hn)

theorem Dozing.run (hs : Dozing h s) (hu : Underway sends s) (hsched : s.sched = quietTurns 16 ++ ts) :
    Stops h sends s.run := by
  rw [run_eq, hsched]
  exact hs.runTurns hu (by decide) ts

/-! ## A parsed command -/

theorem Dozing.begin (hs : Dozing h s) (i : Instr) (c : Command) : Dozing h (s.poweredUp.dispatched i c) := by
  rw [poweredUp_eq]
  exact { hs with }

/-- A command that is in progress after its first line comes to off, or to its item; the line and the implicit power-on
take two of the turns at most (R260). -/
theorem execute_stops {i : Instr} {c : Command} {line : State → State} (hs : Dozing h s)
    (hline : ∀ u, Underway sends (line u)) (hdoze : ∀ u, Dozing h u → Dozing h (line u))
    (hsched : s.sched = quietTurns 16 ++ ts) : Stops h sends (execute i c line s) := by
  have hready (u : State) : (line u).pos.isReady = false := by
    have hf := (hline u).fetch
    cases hp : (line u).pos with
    | ready j => rw [hp] at hf; cases hf
    | _ => rfl
  have hbegin : ∃ m, 13 ≤ m ∧ quietTurns 16 = quietTurns s.beginning ++ quietTurns m := by
    unfold State.beginning
    split
    · exact ⟨15, by decide, rfl⟩
    · exact ⟨14, by decide, rfl⟩
  obtain ⟨m, hm, hturns⟩ := hbegin
  rw [hturns, List.append_assoc] at hsched
  rw [execute_poweredUp i c hready hsched]
  exact (hdoze _ (hs.begin i c)).runTurns (hline _) hm ts

theorem underway_replyWith (bs : List Byte) (u : State) : Underway sends (u.replyWith bs) := by
  cases bs <;> exact ⟨rfl, nofun⟩

theorem Dozing.replyWith (hs : Dozing h s) (bs : List Byte) : Dozing h (s.replyWith bs) := by
  cases bs <;> exact { hs with }

theorem Dozing.needTalker (hs : Dozing h s) (p : Pos) : Dozing h (s.needTalker.goto p) := by
  unfold State.needTalker
  split <;> exact { hs with }

theorem Dozing.needListener (hs : Dozing h s) (p : Pos) : Dozing h (s.needListener.goto p) := by
  unfold State.needListener
  split <;> exact { hs with }

/-- A command that is a write and a reply. -/
theorem execute_stops_reply {i : Instr} {c : Command} {write : State → State} {bs : State → List Byte}
    (hs : Dozing h s) (hdoze : ∀ u, Dozing h u → Dozing h (write u)) (hsched : s.sched = quietTurns 16 ++ ts) :
    Stops h sends (execute i c (fun u => (write u).replyWith (bs u)) s) :=
  execute_stops hs (fun _ => underway_replyWith _ _) (fun u hu => (hdoze u hu).replyWith _) hsched

theorem rejectLine_stops (hs : Dozing h s) (hsched : s.sched = quietTurns 16 ++ ts) : Stops h sends (rejectLine s) :=
  Dozing.run (s := State.replyWith _ [s.cfg.nak]) { hs with } ⟨rfl, nofun⟩ hsched

/-- A parsed command comes to off; only `BLK` may stop at its item. -/
theorem exec_stops {i : Instr} (hi : i.isCommand = true) (hs : Dozing h s) (hsched : s.sched = quietTurns 16 ++ ts) :
    ∃ t, exec i s = .next t ∧ Stops h (i = .blk) t := by
  have reply (c : Command) {write : State → State} {bs : State → List Byte}
      (hdoze : ∀ u, Dozing h u → Dozing h (write u)) :
      Stops h (i = .blk) (execute i c (fun u => (write u).replyWith (bs u)) s) := execute_stops_reply hs hdoze hsched
  have reject := rejectLine_stops (sends := i = .blk) hs hsched
  cases i with
  | pwron | ident _ | status => exact ⟨_, rfl, reply _ (write := id) fun _ hu => hu⟩
  | setRen _ | setSrq _ => exact ⟨_, rfl, reply _ fun _ hu => { hu with }⟩
  | setWriteMode _ | setByteTimeout _ | setTotalTimeout _ | setFirstTimeout _ =>
    simp only [exec, execSetWriteMode, execSetByteTimeout, execSetTotalTimeout, execSetFirstTimeout]
    split
    · exact ⟨_, rfl, reply _ fun _ hu => { hu with }⟩
    · exact ⟨_, rfl, reject⟩
  | busCmdRelease _ | busCmdHold _ =>
    exact ⟨_, rfl, execute_stops hs (fun _ => ⟨rfl, nofun⟩) (fun _ hu => hu.needTalker _) hsched⟩
  | blk => exact ⟨_, rfl, execute_stops hs (fun _ => ⟨rfl, fun _ => rfl⟩) (fun _ hu => hu.needTalker _) hsched⟩
  | recvBlk | recvByte =>
    exact ⟨_, rfl, execute_stops hs (fun _ => ⟨rfl, nofun⟩) (fun _ hu => hu.needListener _) hsched⟩
  | busRst => exact ⟨_, rfl, execute_stops hs (fun _ => ⟨rfl, nofun⟩) (fun _ hu => { hu with }) hsched⟩
  | pwrOff =>
    refine ⟨_, rfl, ?_⟩
    rw [hsched]
    exact Dozing.runTurns (n := 15) (s := (s.dispatched .pwrOff .pwrOff).powerOff.toCleanup) { hs with }
      ⟨rfl, nofun⟩ (by decide) ts
  | escStart | escEsc | escEnd | escChk | escOther _ | literal _ | syntaxError _ | resync _ => cases hi

/-! ## Any position -/

/-- What the invariant says of a pending suspend (R340). -/
theorem dozing_of_inv (hinv : s.inv = true) (hs : s.abt.suspended = true) : Dozing s.host s := by
  simp only [State.inv, Bool.and_eq_true, and_assoc] at hinv
  obtain ⟨-, -, -, -, -, -, -, -, -, -, hsuspend, -⟩ := hinv
  simp only [State.suspendFits, hs, Bool.and_eq_true, beq_iff_eq, Bool.not_true, Bool.false_or, and_assoc] at hsuspend
  obtain ⟨htick, hpend, -⟩ := hsuspend
  exact ⟨rfl, hs, hpend, by simpa [hpend] using htick⟩

theorem commandFits_of_inv (hinv : s.inv = true) : s.pos.commandFits s.disp.curCmd = true := by
  simp only [State.inv, Bool.and_eq_true, and_assoc] at hinv
  obtain ⟨-, -, -, -, -, -, -, -, -, -, -, -, hcmd, -⟩ := hinv
  exact hcmd

/-- A block-send is of `BLK` (R53). -/
theorem curCmd_of_sendsBlock {p : Pos} {c : Option Command} (hfits : p.commandFits c = true)
    (hp : p.sendsBlock = true) : c = some .sendBlk := by
  cases p with
  | d2 | d3 | b0 | item | b3 _ => exact beq_iff_eq.mp hfits
  | put bs k =>
    cases k with
    | item => exact beq_iff_eq.mp hfits
    | _ => cases hp
  | src st b eoi k =>
    cases k with
    | data _ => exact beq_iff_eq.mp hfits
    | _ => cases hp
  | _ => cases hp

/-- A fetch is abandoned, a parsed command begins, and an instruction in progress runs on. -/
theorem step_stops (hinv : s.inv = true) (hs : s.abt.suspended = true) (hsched : s.sched = quietTurns 16 ++ ts) :
    ∃ t, step s = .next t ∧
      Stops s.host ((s.disp.curCmd = some .sendBlk ∨ s.pos = .ready .blk) ∧ s.pos ≠ .item) t := by
  have hdoze := dozing_of_inv hinv hs
  have hfits := commandFits_of_inv hinv
  have habandon := (suspendAbandonsFetch s (quietTurns 12 ++ ts) hs).1
  have hdrain := (suspendAbandonsFetch s (quietTurns 14 ++ ts) hs).2
  cases hf : s.pos.isFetch with
  | false =>
    refine ⟨s.run, step_midway s hf, hdoze.run ⟨hf, fun hp => ⟨.inl (curCmd_of_sendsBlock hfits hp), ?_⟩⟩ hsched⟩
    intro hitem
    rw [hitem] at hf
    cases hf
  | true =>
    cases hp : s.pos with
    | leader | body | item =>
      refine ⟨_, habandon (by simp [hp]) hsched, .inl ?_⟩
      exact Dozing.atOff (s := s.endOp) { hdoze with } _
    | drain => exact ⟨_, hdrain hp hsched, .inl (hdoze.atOff _)⟩
    | ready i =>
      rw [hp] at hfits
      have hi : i.isCommand = true := (Bool.and_eq_true_iff.mp hfits).1
      obtain ⟨t, ht, hstops⟩ := exec_stops hi hdoze hsched
      refine ⟨t, (step_ready s i hp).trans ht, hstops.imp_right fun ⟨hblk, hitem⟩ => ⟨⟨.inr ?_, nofun⟩, hitem⟩⟩
      rw [hblk]
    | _ => rw [hp] at hf; cases hf

/-- Settles O32: by `step_stops`; what it comes to keeps the host channels, field by field. -/
theorem suspendEndsEveryOperation : Obligations.SuspendEndsEveryOperation := by
  unfold Obligations.SuspendEndsEveryOperation
  intro s ts hinv hs hsched
  obtain ⟨t, ht, hstops⟩ := step_stops hinv hs hsched
  refine ⟨t, ht, ?_⟩
  rcases hstops with hoff | ⟨⟨hblk, hitem⟩, hpos, hdoze⟩
  · obtain ⟨hrx, htx⟩ := State.host_eq_iff.mp hoff.host
    exact ⟨htx, hrx, .inl ⟨hoff.pos, hoff.off, hoff.awake, hoff.resumePending, hoff.disarmed⟩⟩
  · obtain ⟨hrx, htx⟩ := State.host_eq_iff.mp hdoze.host
    exact ⟨htx, hrx, .inr ⟨hblk, hitem, hpos, hdoze.suspended⟩⟩

end Sys2Proof.Machine
end

section
/-! PROOF. Two runs through the same turns. A relation of two states that shows the same position, and that every event,
every foreground step and every poll of the fetch keep, holds after a run, after the turns in which a command begins and
after a fetch. -/

namespace Sys2Proof.Machine

/-- Two fetches that come out alike and leave related states. -/
inductive Fetched.Both (R : State → State → Prop) : Fetched → Fetched → Prop
  | more {s s' : State} (h : R s s') : Both R (.more s) (.more s')
  | instr (i : Instr) {s s' : State} (h : R s s') : Both R (.instr i s) (.instr i s')
  | abandon {s s' : State} (h : R s s') : Both R (.abandon s) (.abandon s')

/-- The relation is kept when both states go through the same turns. -/
structure Lockstep (R : State → State → Prop) : Prop where
  pos : ∀ {s s' : State}, R s s' → s'.pos = s.pos
  sched : ∀ {s s' : State}, R s s' → s'.sched = s.sched
  setSched : ∀ {s s' : State} (ts : List Turn), R s s' → R { s with sched := ts } { s' with sched := ts }
  act : ∀ {s s' : State} (e : Event), R s s' → R (e.act s) (e.act s')
  fg : ∀ {s s' : State}, R s s' → R (fg s) (fg s')
  fetchPoll : ∀ {s s' : State}, R s s' → (fetchPoll s).Both R (fetchPoll s')

variable {R : State → State → Prop} {s s' : State}

theorem Lockstep.turn (L : Lockstep R) (t : Turn) (h : R s s') : R (s.turn t) (s'.turn t) := by
  induction t generalizing s s' with
  | nil => exact h
  | cons e t ih => exact ih (L.act e h)

theorem Lockstep.runTurns (L : Lockstep R) (ts : List Turn) (h : R s s') : R (runTurns ts s) (runTurns ts s') := by
  induction ts generalizing s s' with
  | nil => exact L.setSched [] h
  | cons t ts ih =>
    have ht := L.turn t h
    unfold Machine.runTurns
    rw [congrArg Pos.isFetch (L.pos h), congrArg Pos.isFetch (L.pos ht)]
    split
    · exact L.setSched _ h
    · split
      · exact L.setSched _ ht
      · exact ih (L.fg ht)

theorem Lockstep.run (L : Lockstep R) (h : R s s') : R s.run s'.run := by
  rw [run_eq, run_eq, L.sched h]
  exact L.runTurns s.sched h

theorem Lockstep.beginTurns (L : Lockstep R) {line : State → State}
    (hline : ∀ {s s' : State}, R s s' → R (line s) (line s')) (ts : List Turn) (h : R s s') :
    R (beginTurns line ts s) (beginTurns line ts s') := by
  induction ts generalizing s s' with
  | nil => exact L.setSched [] h
  | cons t ts ih =>
    have ht := L.turn t h
    have hl := hline ht
    unfold Machine.beginTurns
    dsimp only
    rw [congrArg Pos.isReady (L.pos ht), congrArg Pos.isReady (L.pos hl)]
    split
    · split
      · exact ih hl
      · exact L.runTurns ts hl
    · exact L.setSched _ ht

theorem Lockstep.fetchTurns (L : Lockstep R) (ts : List Turn) (h : R s s') :
    (fetchTurns ts s).Both R (fetchTurns ts s') := by
  induction ts generalizing s s' with
  | nil => exact .more (L.setSched [] h)
  | cons t ts ih =>
    have hp := L.fetchPoll (L.turn t h)
    unfold Machine.fetchTurns
    generalize Machine.fetchPoll (s.turn t) = r, Machine.fetchPoll (s'.turn t) = r' at hp ⊢
    cases hp with
    | more hu => exact ih hu
    | instr i hu => exact .instr i (L.setSched ts hu)
    | abandon hu => exact .abandon (L.setSched ts hu)

end Sys2Proof.Machine
end

section
/-! PROOF. States that differ only in what reset leaves unspecified and nothing reads (R371): `xfer.dir`,
`xfer.eoi_policy` outside the loop of a block-send, `xfer.hold_byte` while it is not valid. An operation that neither
reads nor writes the three, comes into the loop only from inside it, and makes no held byte valid, leads from such
states to such states (`ReadAlike.through`). -/

namespace Sys2Proof.Machine

/-- The state with the three elements of R371 as in `x`. -/
def State.withUnread (s : State) (x : Transfer) : State :=
  s.setXfer fun y => { y with dir := x.dir, eoiPolicy := x.eoiPolicy, holdByte := x.holdByte }

theorem withUnread_ite (p : Prop) [Decidable p] (s t : State) (x : Transfer) :
    (if p then s else t).withUnread x = if p then s.withUnread x else t.withUnread x :=
  apply_ite (·.withUnread x) p s t

/-- The two states differ at most in the three elements, and in those only where they are unspecified. -/
inductive ReadAlike : State → State → Prop
  | mk (u : State) (x y : Transfer) (eoi : u.pos.inSendLoop = true → x.eoiPolicy = y.eoiPolicy)
      (hold : u.xfer.holdValid = true → x.holdByte = y.holdByte) : ReadAlike (u.withUnread x) (u.withUnread y)

variable {s s' : State}

theorem ReadAlike.blind_eq (h : ReadAlike s s') : s.blind = s'.blind := by
  obtain ⟨u, x, y, eoi, hold⟩ := h
  have he : (x.eoiPolicy && u.pos.inSendLoop) = (y.eoiPolicy && u.pos.inSendLoop) := by
    cases hp : u.pos.inSendLoop with
    | true => rw [eoi hp]
    | false => rw [Bool.and_false, Bool.and_false]
  have hb : (if u.xfer.holdValid then x.holdByte else 0#8) = if u.xfer.holdValid then y.holdByte else 0#8 :=
    ite_congr rfl hold fun _ => rfl
  exact congrArg₂ (fun e b => u.setXfer fun z => { z with dir := .send, eoiPolicy := e, holdByte := b }) he hb

theorem readAlike_of_blind_eq (h : s.blind = s'.blind) : ReadAlike s s' := by
  have hp : s.pos = s'.pos := congrArg (fun t => t.pos) h
  have hv : s.xfer.holdValid = s'.xfer.holdValid := congrArg (fun t => t.xfer.holdValid) h
  have he : (s.xfer.eoiPolicy && s.pos.inSendLoop) = (s'.xfer.eoiPolicy && s'.pos.inSendLoop) :=
    congrArg (fun t => t.xfer.eoiPolicy) h
  have hb : (if s.xfer.holdValid then s.xfer.holdByte else 0#8) =
      if s'.xfer.holdValid then s'.xfer.holdByte else 0#8 :=
    congrArg (fun t => t.xfer.holdByte) h
  have hs' : s' = s.blind.withUnread s'.xfer := by rw [h]; rfl
  rw [hs']
  refine .mk s.blind s.xfer s'.xfer (fun hloop => ?_) fun hvalid => ?_
  · replace hloop : s.pos.inSendLoop = true := hloop
    simpa [← hp, hloop] using he
  · replace hvalid : s.xfer.holdValid = true := hvalid
    simpa [← hv, hvalid] using hb

/-- Only where the three are unspecified does `State.blind` overwrite them. -/
theorem readAlike_iff_blind_eq : ReadAlike s s' ↔ s.blind = s'.blind :=
  ⟨ReadAlike.blind_eq, readAlike_of_blind_eq⟩

namespace ReadAlike

theorem refl (s : State) : ReadAlike s s := .mk s s.xfer s.xfer (fun _ => rfl) fun _ => rfl

/-! ## What such states share -/

theorem cfg (h : ReadAlike s s') : s'.cfg = s.cfg := by cases h; rfl
theorem sess (h : ReadAlike s s') : s'.sess = s.sess := by cases h; rfl
theorem abt (h : ReadAlike s s') : s'.abt = s.abt := by cases h; rfl
theorem disp (h : ReadAlike s s') : s'.disp = s.disp := by cases h; rfl
theorem pos (h : ReadAlike s s') : s'.pos = s.pos := by cases h; rfl
theorem rx (h : ReadAlike s s') : s'.rx = s.rx := by cases h; rfl
theorem inp (h : ReadAlike s s') : s'.inp = s.inp := by cases h; rfl
theorem sched (h : ReadAlike s s') : s'.sched = s.sched := by cases h; rfl
theorem codec (h : ReadAlike s s') : s'.xfer.codec = s.xfer.codec := by cases h; rfl
theorem seenFirst (h : ReadAlike s s') : s'.xfer.seenFirst = s.xfer.seenFirst := by cases h; rfl
theorem blockDone (h : ReadAlike s s') : s'.xfer.blockDone = s.xfer.blockDone := by cases h; rfl
theorem holdValid (h : ReadAlike s s') : s'.xfer.holdValid = s.xfer.holdValid := by cases h; rfl
theorem parser (h : ReadAlike s s') : s'.parser = s.parser := by cases h; rfl
theorem decMode (h : ReadAlike s s') : s'.decMode = s.decMode := by cases h; rfl

theorem eoiPolicy (h : ReadAlike s s') (hp : s.pos.inSendLoop = true) : s'.xfer.eoiPolicy = s.xfer.eoiPolicy := by
  cases h with
  | mk u x y eoi _ => exact (eoi hp).symm

theorem holdByte (h : ReadAlike s s') (hv : s.xfer.holdValid = true) : s'.xfer.holdByte = s.xfer.holdByte := by
  cases h with
  | mk u x y _ hold => exact (hold hv).symm

/-! ## What keeps them alike -/

/-- An operation that passes the three elements through. -/
theorem through (f : State → State) (h : ReadAlike s s') (hf : ∀ u x, f (u.withUnread x) = (f u).withUnread x)
    (loop : (f s).pos.inSendLoop = true → s.pos.inSendLoop = true)
    (hold : (f s).xfer.holdValid = true → s.xfer.holdValid = true) : ReadAlike (f s) (f s') := by
  cases h with
  | mk u x y eoi hold' =>
    rw [hf] at loop hold
    rw [hf, hf]
    exact .mk (f u) x y (fun hp => eoi (loop hp)) fun hv => hold' (hold hv)

/-- The same for an operation that leaves the position and the transfer context. -/
theorem keeping (f : State → State) (h : ReadAlike s s') (hf : ∀ u x, f (u.withUnread x) = (f u).withUnread x)
    (hpos : (f s).pos = s.pos) (hxfer : (f s).xfer = s.xfer) : ReadAlike (f s) (f s') :=
  h.through f hf (by rw [hpos]; exact id) (by rw [hxfer]; exact id)

theorem drive (f : BusOut → BusOut) (h : ReadAlike s s') : ReadAlike (s.drive f) (s'.drive f) :=
  h.keeping (·.drive f) (fun _ _ => rfl) rfl rfl

theorem stamp (r : Option Reason) (h : ReadAlike s s') : ReadAlike (s.stamp r) (s'.stamp r) :=
  h.keeping (·.stamp r) (fun _ _ => rfl) rfl rfl

theorem byteDone (h : ReadAlike s s') : ReadAlike s.byteDone s'.byteDone :=
  h.keeping State.byteDone (fun _ _ => rfl) rfl rfl

theorem goto (p : Pos) (h : ReadAlike s s') (hp : p.inSendLoop = true → s.pos.inSendLoop = true) :
    ReadAlike (s.goto p) (s'.goto p) := h.through (·.goto p) (fun _ _ => rfl) hp id

theorem setSched (ts : List Turn) (h : ReadAlike s s') : ReadAlike { s with sched := ts } { s' with sched := ts } :=
  h.keeping (fun s => { s with sched := ts }) (fun _ _ => rfl) rfl rfl

theorem toCleanup (h : ReadAlike s s') : ReadAlike s.toCleanup s'.toCleanup :=
  h.through State.toCleanup (fun _ _ => rfl) nofun id

theorem replyWith (bs : List Byte) (h : ReadAlike s s') : ReadAlike (s.replyWith bs) (s'.replyWith bs) := by
  cases bs with
  | nil => exact h.toCleanup
  | cons b rest => exact h.goto _ nofun

theorem finish (r : Result) (h : ReadAlike s s') : ReadAlike (finish r s) (finish r s') := by
  unfold Machine.finish
  rw [h.cfg]
  cases r.code s.cfg with
  | none => exact h.toCleanup
  | some b =>
    dsimp only
    split
    · exact h.goto _ nofun
    · exact h.replyWith [b]

theorem powerOn (h : ReadAlike s s') : ReadAlike s.powerOn s'.powerOn :=
  h.keeping State.powerOn (fun _ _ => rfl) rfl rfl

theorem tick (h : ReadAlike s s') : ReadAlike (tick s) (tick s') := by
  refine h.keeping Machine.tick (fun u x => ?_) (tick_pos s) (tick_xfer s)
  unfold Machine.tick
  rw [withUnread_ite]
  rfl

theorem act (e : Event) (h : ReadAlike s s') : ReadAlike (e.act s) (e.act s') := by
  cases e with
  | tick => exact h.tick
  | por =>
    have hpor : s'.por = s.por := by cases h; rfl
    rw [Event.act, Event.act, hpor]
    exact refl s.por
  | suspend | hostByte _ | rxFlush | inputs _ => exact h.keeping (Event.act _) (fun _ _ => rfl) rfl rfl

end ReadAlike

end Sys2Proof.Machine
end

section
/-! PROOF. The foreground keeps states alike that differ only in what nothing reads (R371). Only B0 and L0 write
`xfer.dir` and only B0 the EOI policy; only B3 holds a byte, with its valid bit (R190, R200). -/

namespace Sys2Proof.Machine

/-- The steps of one byte's handshake are inside the loop of a block-send or outside it together. -/
theorem inSendLoop_src (st st' : SrcStep) (b : Byte) (eoi : Bool) (k : SrcReturn) :
    (Pos.src st b eoi k).inSendLoop = (Pos.src st' b eoi k).inSendLoop := by
  cases k <;> rfl

namespace ReadAlike

variable {s s' : State}

/-! ## The polls -/

theorem srqPoll (h : ReadAlike s s') : ReadAlike (srqPoll s) (srqPoll s') := by
  have keeps : (Machine.srqPoll s).pos = s.pos ∧ (Machine.srqPoll s).xfer = s.xfer := by
    rcases srqPoll_cases s with he | he | he <;> rw [he] <;> exact ⟨rfl, rfl⟩
  refine h.keeping Machine.srqPoll (fun u x => ?_) keeps.1 keeps.2
  simp only [Machine.srqPoll, withUnread_ite]
  rfl

theorem resumed (h : ReadAlike s s') : ReadAlike s.resumed s'.resumed := by
  have keeps : s.resumed.pos = s.pos ∧ s.resumed.xfer = s.xfer := by
    rcases resumed_eq s with he | he <;> rw [he] <;> exact ⟨rfl, rfl⟩
  refine h.keeping State.resumed (fun u x => ?_) keeps.1 keeps.2
  unfold State.resumed
  rw [withUnread_ite]
  rfl

/-- Two polls of `HostGet` that come out alike. -/
inductive Gets : GetPoll → GetPoll → Prop
  | abort : Gets .abort .abort
  | empty {s s' : State} (h : ReadAlike s s') : Gets (.empty s) (.empty s')
  | byte (b : Byte) {s s' : State} (h : ReadAlike s s') : Gets (.byte b s) (.byte b s')

theorem hostGet (h : ReadAlike s s') : Gets (hostGet s) (hostGet s') := by
  rcases hostGet_cases s with ⟨hs, hg⟩ | ⟨hs, hr, hg⟩ | ⟨b, rest, hs, hr, hg⟩ <;> rw [hg]
  · rw [hostGet_suspended (h.abt ▸ hs)]
    exact .abort
  · rw [hostGet_empty (h.abt ▸ hs) (h.rx.trans hr), h.disp]
    split
    · exact .empty h.srqPoll
    · exact .empty h
  · rw [hostGet_byte (h.abt ▸ hs) (h.rx.trans hr)]
    exact .byte b (h.keeping (fun s => { s with rx := rest }) (fun _ _ => rfl) rfl rfl).resumed

theorem resyncStep (h : ReadAlike s s') : ReadAlike (resyncStep s) (resyncStep s') := by
  have hg := h.hostGet
  unfold Machine.resyncStep
  generalize Machine.hostGet s = p, Machine.hostGet s' = p' at hg ⊢
  cases hg with
  | abort => exact h.toCleanup
  | empty ht => exact ht
  | byte b ht =>
    dsimp only
    rw [ht.cfg]
    split
    · exact ht.toCleanup
    · exact ht

/-- A bus wait whose condition does not read the three; what follows it begins at the wait's position (R171). -/
theorem polling {cond : State → Bool} {r : Reason} {c : Bool} {k : Result → State → State} (h : ReadAlike s s')
    (hc : ∀ u x, cond (State.withUnread u x) = cond u)
    (hk : ∀ w {t t' : State}, ReadAlike t t' → t.pos = s.pos → ReadAlike (k w t) (k w t')) :
    ReadAlike (polling (wait (cond s) r c s) s k) (polling (wait (cond s') r c s') s' k) := by
  have hcond : cond s' = cond s := by cases h; rw [hc, hc]
  rw [hcond]
  unfold wait
  rw [h.abt, h.inp]
  split
  · exact hk _ h rfl
  · split
    · exact hk _ (h.stamp _) rfl
    · split
      · exact hk _ (h.stamp _) rfl
      · split
        · exact hk _ h rfl
        · exact h

/-! ## `HostPut`s, and the two handshakes -/

theorem receiveFin (w : Result) (h : ReadAlike s s') : ReadAlike (receiveFin w s) (receiveFin w s') := by
  unfold Machine.receiveFin
  split
  · exact h.finish _
  · rw [h.cfg]
    exact h.goto _ nofun

theorem putDone {bs : List Byte} {k : PutReturn} (sent : Bool) (h : ReadAlike s s') (hp : s.pos = .put bs k) :
    ReadAlike (putDone k sent s) (putDone k sent s') := by
  cases k with
  | cleanup => exact h.toCleanup
  | resync => exact h.goto _ nofun
  | item => exact h.goto _ fun _ => by rw [hp]; rfl
  | blockEnd w => exact h.finish _
  | nullByte => exact (h.stamp none).finish .ok
  | blockStart | captured _ =>
    cases sent with
    | true => exact h.goto _ nofun
    | false => exact h.receiveFin .suspended
  | rawByte =>
    cases sent with
    | true => exact h.goto _ nofun
    | false => exact h.finish .suspended

theorem putStep {bs : List Byte} {k : PutReturn} (h : ReadAlike s s') (hp : s.pos = .put bs k) :
    ReadAlike (putStep bs k s) (putStep bs k s') := by
  cases bs with
  | nil => exact h.putDone true hp
  | cons b rest =>
    have hpush : ReadAlike (s.push b) (s'.push b) := h.keeping (·.push b) (fun _ _ => rfl) rfl rfl
    simp only [Machine.putStep, hostPut, h.abt, h.inp]
    cases s.abt.suspended with
    | true => exact h.putDone false hp
    | false =>
      cases s.inp.txFull with
      | true => exact h
      | false =>
        show ReadAlike (ite _ _ _) (ite _ _ _)
        split
        · exact hpush.putDone true hp
        · refine hpush.goto _ fun hl => ?_
          rw [State.push_pos, hp]
          cases k <;> exact hl

theorem dropsHold (h : ReadAlike s s') :
    ReadAlike (s.setXfer fun x => { x with holdValid := false }) (s'.setXfer fun x => { x with holdValid := false }) :=
  h.through (·.setXfer fun x => { x with holdValid := false }) (fun _ _ => rfl) id nofun

theorem srcReturned {st : SrcStep} {b : Byte} {eoi : Bool} {k : SrcReturn} (h : ReadAlike s s')
    (hp : s.pos = .src st b eoi k) : ReadAlike (srcReturned k s) (srcReturned k s') := by
  cases k with
  | command release => exact h.goto _ nofun
  | data next => exact h.goto _ fun _ => by rw [hp]; rfl
  | last => exact h.dropsHold.finish .ok

theorem srcFailed (w : Result) (k : SrcReturn) (h : ReadAlike s s') :
    ReadAlike (srcFailed w k s) (srcFailed w k s') := by
  cases k with
  | command release => exact h.goto _ nofun
  | data next => exact h.finish w
  | last => exact h.dropsHold.finish w

theorem srcStep {st : SrcStep} {b : Byte} {eoi : Bool} {k : SrcReturn} (h : ReadAlike s s')
    (hp : s.pos = .src st b eoi k) : ReadAlike (srcStep st b eoi k s) (srcStep st b eoi k s') := by
  have loop {t : State} (ht : t.pos = s.pos) (st' : SrcStep) (hl : (Pos.src st' b eoi k).inSendLoop = true) :
      t.pos.inSendLoop = true := by
    rw [ht, hp, inSendLoop_src]
    exact hl
  have waited (next : SrcStep) (w : Result) {t t' : State} (ht : ReadAlike t t') (htp : t.pos = s.pos) :
      ReadAlike (srcWaited next b eoi k w t) (srcWaited next b eoi k w t') := by
    cases w <;> exact ht.goto _ (loop htp _)
  cases st with
  | s1 | s5 | s7 => exact h.through (Machine.srcStep _ b eoi k) (fun _ _ => rfl) (loop rfl _) id
  | s4 => cases eoi <;> exact h.through (Machine.srcStep _ b _ k) (fun _ _ => rfl) (loop rfl _) id
  | s2 => exact h.polling (cond := fun s => s.nrfdIn || s.ndacIn) (fun _ _ => rfl) (waited _)
  | s3 => exact h.polling (cond := fun s => !s.nrfdIn) (fun _ _ => rfl) (waited _)
  | s6 => exact h.polling (cond := fun s => !s.ndacIn) (fun _ _ => rfl) (waited _)
  | s8 => exact h.byteDone.srcReturned hp
  | sf w => exact (h.drive _).srcFailed w k

/-! ## The steps that write the three elements -/

/-- B0 writes the direction and the policy, and holds nothing (R190). -/
theorem sendBlockB0 (h : ReadAlike s s') : ReadAlike (sendBlockB0 s) (sendBlockB0 s') := by
  cases h with
  | mk u x y _ _ =>
    exact .mk (Machine.sendBlockB0 u)
      { x with dir := .send, eoiPolicy := decide (u.sess.writeMode.toNat < 4) }
      { y with dir := .send, eoiPolicy := decide (u.sess.writeMode.toNat < 4) } (fun _ => rfl) nofun

/-- B3 holds a byte with its valid bit (R190). -/
theorem sendBlockB3 {b : Byte} (h : ReadAlike s s') (hp : s.pos = .b3 b) :
    ReadAlike (sendBlockB3 b s) (sendBlockB3 b s') := by
  cases h with
  | mk u x y eoi _ =>
    exact .mk (Machine.sendBlockB3 b u) { x with holdByte := b } { y with holdByte := b }
      (fun _ => eoi (congrArg Pos.inSendLoop hp)) fun _ => rfl

/-- L0 writes the direction (R200). -/
theorem receiveL0 (h : ReadAlike s s') : ReadAlike (receiveL0 s) (receiveL0 s') := by
  cases h with
  | mk u x y _ hold =>
    exact .mk (Machine.receiveL0 u) { x with dir := .receive } { y with dir := .receive } nofun hold

/-! ## One foreground step -/

theorem cleanupK2 (h : ReadAlike s s') : ReadAlike (cleanupK2 s) (cleanupK2 s') := by
  unfold Machine.cleanupK2
  rw [h.disp, h.blockDone, h.abt]
  split <;> exact h.goto _ nofun

theorem cleanupK3 (h : ReadAlike s s') : ReadAlike (cleanupK3 s) (cleanupK3 s') := by
  unfold Machine.cleanupK3
  rw [h.abt]
  split
  · exact h.through (·.suspendCleanup.cycleStart) (fun _ _ => rfl) nofun nofun
  · exact h.through State.cycleStart (fun _ _ => rfl) nofun id

theorem busResetStep (st : ResetStep) (reply : Byte) (h : ReadAlike s s') :
    ReadAlike (busResetStep st reply s) (busResetStep st reply s') := by
  cases st <;> exact h.through (Machine.busResetStep _ reply) (fun _ _ => rfl) nofun id

theorem fg (h : ReadAlike s s') : ReadAlike (fg s) (fg s') := by
  unfold Machine.fg
  rw [h.pos]
  cases hp : s.pos with
  | leader | body | item | drain | ready _ => exact h
  | resync => exact h.resyncStep
  | put bs k => exact h.putStep hp
  | src st b eoi k => exact h.srcStep hp
  | b0 => exact h.sendBlockB0
  | b3 b => exact h.sendBlockB3 hp
  | l0 => exact h.receiveL0
  | k2 => exact h.cleanupK2
  | k3 => exact h.cleanupK3
  | busReset st reply => exact h.busResetStep st reply
  | g2 _ _ | c1 _ _ | d2 | d3 | v2 | v3 | l1 | l3 | l4 _ _ | l6 _ | w2 | w3 | y1 | y3 | y4 _ | y6 | k1 =>
    dsimp only
    exact h.through _ (fun _ _ => rfl) nofun id
  | c3 r release =>
    refine ReadAlike.finish r ?_
    split
    · exact h
    · exact h.drive _
  | l2 | y2 =>
    refine h.polling (cond := State.davIn) (fun _ _ => rfl) fun w t t' ht _ => ?_
    split <;> exact ht.goto _ nofun
  | l7 _ | y7 =>
    exact h.polling (cond := fun s => !s.davIn) (fun _ _ => rfl) fun w t t' ht _ => ht.goto _ nofun
  | l2f w => exact (h.drive _).receiveFin w
  | l8 w eoi =>
    simp only [receiveL8]
    split
    · exact (h.drive _).goto _ nofun
    · exact (h.drive _).receiveFin w
  | l9 eoi =>
    simp only [receiveL9]
    split
    · exact h.byteDone.receiveFin .ok
    · exact h.byteDone.goto _ nofun
  | y2f w =>
    simp only [receiveByteY2Failed]
    split
    · exact (h.drive _).finish .suspended
    · rw [(h.drive _).cfg]
      exact (h.drive _).goto _ nofun
  | y8 w =>
    simp only [receiveByteY8]
    split
    · exact (h.drive _).goto _ nofun
    · exact (h.drive _).finish w
  | y9 => exact h.byteDone.finish .ok

end ReadAlike

end Sys2Proof.Machine
end

section
/-! PROOF. The fetch, the instructions and a step from states that differ only in what nothing reads (R371). The end of
a block reads the EOI policy, and an item is decoded live only inside the loop of a block-send, where the policy has
been written (R190). -/

namespace Sys2Proof.Machine

variable {s s' : State} {i : Instr} {b : Byte}

/-! ## Where items are taken -/

/-- The positions at which items of a block are decoded (R143, R266). -/
def Pos.takesItems : Pos → Bool
  | .item | .drain => true
  | _ => false

/-- A live item is taken inside the loop of a block-send. -/
theorem inSendLoop_of_live (hp : s.pos.takesItems = true) (hm : s.decMode = .live) : s.pos.inSendLoop = true := by
  cases hpos : s.pos with
  | item => rfl
  | drain => rw [decMode_drain hpos] at hm; cases hm
  | _ => rw [hpos] at hp; cases hp

theorem contextOf_of_isCommand (h : i.isCommand = true) : contextOf i = .command := by
  cases i with
  | escStart | escEsc | escEnd | escChk | escOther _ | literal _ | syntaxError _ | resync _ => cases h
  | _ => rfl

/-- The parser reads commands and what is none, but no items (R111, R253, R256). -/
theorem contextOf_of_parseByte {c : Cfg} {st : ParseState} (h : parseByte c st b = .done i) :
    contextOf i = .command := by
  cases st with
  | leader0 | leader1 =>
    simp only [parseByte] at h
    split at h <;> cases h
    rfl
  | body buf =>
    simp only [parseByte] at h
    split at h
    · cases h
      exact contextOf_of_body (decodeLine_eq_iff.1 rfl).2
    · split at h
      · cases h; rfl
      · split at h <;> cases h
        rfl

/-- Where the fetch reads an item of a block, items are taken. -/
def ReadsItemInBlock : Fetched → Prop
  | .instr i s => contextOf i = .block → s.pos.takesItems = true
  | .more _ | .abandon _ => True

theorem fetchPoll_readsItemInBlock (s : State) : ReadsItemInBlock (fetchPoll s) := by
  unfold fetchPoll
  cases hostGet s with
  | abort | empty _ => trivial
  | byte b t =>
    dsimp only
    unfold fetchByte
    split
    case isTrue hp =>
      cases itemByte t.cfg t.xfer.codec b with
      | none => trivial
      | some i => exact fun _ => by rcases hp with hp | hp <;> rw [hp] <;> rfl
    case isFalse =>
      cases hb : parseByte t.cfg t.parser b with
      | more st => trivial
      | done i => exact fun hi => by rw [contextOf_of_parseByte hb] at hi; cases hi

theorem fetchTurns_readsItemInBlock (ts : List Turn) (s : State) : ReadsItemInBlock (fetchTurns ts s) := by
  induction ts generalizing s with
  | nil => trivial
  | cons t ts ih =>
    have hp := fetchPoll_readsItemInBlock (s.turn t)
    unfold fetchTurns
    generalize fetchPoll (s.turn t) = r at hp ⊢
    cases r with
    | more u => exact ih u
    | instr i u => exact hp
    | abandon u => trivial

/-! ## The fetch -/

namespace ReadAlike

theorem fetchAborted (h : ReadAlike s s') : ReadAlike (fetchAborted s) (fetchAborted s') := by
  unfold Machine.fetchAborted
  rw [h.pos]
  split
  · exact h.finish .suspended
  · exact h.goto _ nofun
  · exact h.toCleanup

theorem setParser (st : ParseState) (h : ReadAlike s s') : ReadAlike (s.setParser st) (s'.setParser st) := by
  cases st <;> exact h.through (·.setParser _) (fun _ _ => rfl) nofun id

theorem fetchByte (b : Byte) (h : ReadAlike s s') : (fetchByte b s).Both ReadAlike (fetchByte b s') := by
  unfold Machine.fetchByte
  rw [h.pos, h.cfg, h.codec, h.parser]
  split
  · cases itemByte s.cfg s.xfer.codec b with
    | some i => exact .instr i h
    | none => exact .more (h.through (·.setXfer fun x => { x with codec := .sawEscape }) (fun _ _ => rfl) id id)
  · cases parseByte s.cfg s.parser b with
    | more st => exact .more (h.setParser st)
    | done i => exact .instr i h

theorem fetchPoll (h : ReadAlike s s') : (fetchPoll s).Both ReadAlike (fetchPoll s') := by
  have hg := h.hostGet
  unfold Machine.fetchPoll
  generalize Machine.hostGet s = p, Machine.hostGet s' = p' at hg ⊢
  cases hg with
  | abort => exact .abandon h.fetchAborted
  | empty ht => exact .more ht
  | byte b ht => exact ht.fetchByte b

theorem lockstep : Lockstep ReadAlike where
  pos := pos
  sched := sched
  setSched := setSched
  act := act
  fg := fg
  fetchPoll := fetchPoll

/-! ## The instructions -/

/-- B2 reads the held byte where it is valid (R190). -/
theorem sendBlockB2 (b : Byte) (h : ReadAlike s s') (hp : s.pos.inSendLoop = true) :
    ReadAlike (sendBlockB2 b s) (sendBlockB2 b s') := by
  unfold Machine.sendBlockB2
  rw [h.holdValid]
  split
  case isTrue hv =>
    rw [h.holdByte hv]
    exact h.goto _ fun _ => hp
  case isFalse => exact h.goto _ fun _ => hp

/-- B4 reads the held byte where it is valid, and the policy inside the loop (R190). -/
theorem sendBlockB4 (h : ReadAlike s s') (hp : s.pos.inSendLoop = true) :
    ReadAlike (sendBlockB4 s) (sendBlockB4 s') := by
  unfold Machine.sendBlockB4
  rw [h.holdValid]
  split
  case isTrue hv =>
    rw [h.holdByte hv, h.eoiPolicy hp]
    exact h.goto _ nofun
  case isFalse => exact h.finish .ok

theorem onToken (m : DecMode) (k : Token) (h : ReadAlike s s') (hm : m = .live → s.pos.inSendLoop = true) :
    ReadAlike (onToken m k s) (onToken m k s') := by
  have hdone := h.through (·.setXfer fun x => { x with blockDone := true }) (fun _ _ => rfl) id id
  cases m with
  | drain =>
    cases k with
    | more | data _ | checkpoint => exact h.goto _ nofun
    | finish | violation => exact hdone.goto _ nofun
  | live =>
    have hp := hm rfl
    cases k with
    | more => exact h.goto _ fun _ => hp
    | data b => exact h.sendBlockB2 b hp
    | finish => exact hdone.sendBlockB4 hp
    | checkpoint =>
      unfold Machine.onToken
      rw [h.cfg]
      exact h.goto _ fun _ => hp
    | violation => exact (hdone.stamp _).finish (.failed .frameError)

theorem decodeByte (st : CodecState) (b : Byte) (h : ReadAlike s s') (hp : s.pos.takesItems = true) :
    ReadAlike (decodeByte st b s) (decodeByte st b s') := by
  have written (d : CodecState × Bool) :=
    h.through (·.setXfer fun x => { x with codec := d.1, seenFirst := d.2 }) (fun _ _ => rfl) id id
  simp only [Machine.decodeByte, h.decMode, h.cfg, h.seenFirst]
  exact (written (_, _)).onToken _ _ (inSendLoop_of_live hp)

end ReadAlike

/-- Two outcomes with next states that differ only in what nothing reads. -/
def NextReadAlike (o o' : Host.Outcome State Fault Refusal) : Prop :=
  ∃ t t', o = .next t ∧ o' = .next t' ∧ ReadAlike t t'

namespace ReadAlike

theorem poweredLine {line : State → State}
    (hline : ∀ {s s' : State}, ReadAlike s s' → ReadAlike (line s) (line s')) (h : ReadAlike s s') :
    ReadAlike (poweredLine line s) (poweredLine line s') := by
  unfold Machine.poweredLine
  rw [h.sess]
  split
  · exact hline h
  · exact h.powerOn

theorem dispatched (i : Instr) (c : Command) (h : ReadAlike s s') :
    ReadAlike (s.dispatched i c) (s'.dispatched i c) := h.through (·.dispatched i c) (fun _ _ => rfl) nofun id

theorem execute (i : Instr) (c : Command) {line : State → State}
    (hline : ∀ {s s' : State}, ReadAlike s s' → ReadAlike (line s) (line s')) (h : ReadAlike s s') :
    ReadAlike (execute i c line s) (execute i c line s') := by
  unfold Machine.execute
  rw [h.sched]
  exact lockstep.beginTurns (poweredLine hline) s.sched (h.dispatched i c)

theorem needTalker (h : ReadAlike s s') : ReadAlike s.needTalker s'.needTalker := by
  unfold State.needTalker
  rw [h.sess]
  split
  · exact h
  · exact h.keeping State.assumeTalker (fun _ _ => rfl) rfl rfl

theorem needListener (h : ReadAlike s s') : ReadAlike s.needListener s'.needListener := by
  unfold State.needListener
  rw [h.sess]
  split
  · exact h
  · exact h.keeping State.assumeListener (fun _ _ => rfl) rfl rfl

/-- A reply that the configuration gives is the same. -/
theorem replyOf (bs : Cfg → List Byte) (h : ReadAlike s s') :
    ReadAlike (s.replyWith (bs s.cfg)) (s'.replyWith (bs s'.cfg)) := by
  rw [h.cfg]
  exact h.replyWith _

theorem run (h : ReadAlike s s') : NextReadAlike (.next s.run) (.next s'.run) := ⟨_, _, rfl, rfl, lockstep.run h⟩

theorem rejectLine (h : ReadAlike s s') : NextReadAlike (.next (rejectLine s)) (.next (rejectLine s')) :=
  have hd := h.keeping (fun s => { s with disp := { s.disp with curCmd := some .syntaxError, phase := .dispatch } })
    (fun _ _ => rfl) rfl rfl
  run (hd.replyOf fun c => [c.nak])

/-- An instruction, an item of a block where items are taken. -/
theorem exec (i : Instr) (h : ReadAlike s s') (hi : contextOf i = .block → s.pos.takesItems = true) :
    NextReadAlike (exec i s) (exec i s') := by
  have command (c : Command) {line : State → State}
      (hline : ∀ {s s' : State}, ReadAlike s s' → ReadAlike (line s) (line s')) :
      NextReadAlike (.next (Machine.execute i c line s)) (.next (Machine.execute i c line s')) :=
    ⟨_, _, rfl, rfl, h.execute i c hline⟩
  have plain (c : Command) {line : State → State} (hf : ∀ u x, line (State.withUnread u x) = (line u).withUnread x)
      (hpos : ∀ u, (line u).pos.inSendLoop = false) (hxfer : ∀ u, (line u).xfer = u.xfer) :
      NextReadAlike (.next (Machine.execute i c line s)) (.next (Machine.execute i c line s')) :=
    command c fun {u u'} hu => hu.through line hf (by rw [hpos u]; nofun) (by rw [hxfer u]; exact id)
  have item (st : CodecState) (b : Byte) (hb : contextOf i = .block) :
      NextReadAlike (.next (Machine.decodeByte st b s).run) (.next (Machine.decodeByte st b s').run) :=
    (h.decodeByte st b (hi hb)).run
  cases i with
  | pwron | status | setRen _ | setSrq _ | busRst => exact plain _ (fun _ _ => rfl) (fun _ => rfl) fun _ => rfl
  | busCmdRelease _ | busCmdHold _ | blk => exact command _ fun hu => hu.needTalker.goto _ nofun
  | recvBlk | recvByte => exact command _ fun hu => hu.needListener.goto _ nofun
  | ident n => exact command _ fun hu => hu.replyOf (·.idString n)
  | pwrOff =>
    simp only [Machine.exec, execPwrOff]
    rw [h.sched]
    exact ⟨_, _, rfl, rfl, lockstep.beginTurns
      (fun hu => hu.through (·.powerOff.toCleanup) (fun _ _ => rfl) nofun id) _ (h.dispatched _ _)⟩
  | setWriteMode _ | setByteTimeout _ | setTotalTimeout _ | setFirstTimeout _ =>
    simp only [Machine.exec, execSetWriteMode, execSetByteTimeout, execSetTotalTimeout, execSetFirstTimeout, h.cfg]
    split
    · exact plain _ (fun _ _ => rfl) (fun _ => rfl) fun _ => rfl
    · exact h.rejectLine
  | escStart | escEsc | escEnd | escChk =>
    simp only [Machine.exec, execEscStart, execEscEsc, execEscEnd, execEscChk]
    rw [h.cfg]
    exact item .sawEscape _ rfl
  | escOther x => exact item .sawEscape x rfl
  | literal x => exact item .normal x rfl
  | syntaxError bad =>
    cases bad with
    | line _ => exact h.rejectLine
    | oversized _ _ => exact run (h.through (fun s => s.goto (.put [s.cfg.nak] .resync)) (fun _ _ => rfl) nofun id)
  | resync bad =>
    simp only [Machine.exec, execResync]
    rw [h.cfg]
    split
    · exact h.toCleanup.run
    · exact (h.goto .resync nofun).run

end ReadAlike

/-- A command that has been parsed is no item of a block (R259). -/
theorem contextOf_of_ready (hinv : s.inv = true) (hp : s.pos = .ready i) : contextOf i = .command := by
  have hfits := commandFits_of_inv hinv
  rw [hp] at hfits
  exact contextOf_of_isCommand (Bool.and_eq_true_iff.mp hfits).1

/-- A step, by the kind of position: the fetch, the instruction it reads, and the run. -/
theorem ReadAlike.step (h : ReadAlike s s') (hinv : s.inv = true) : NextReadAlike (step s) (step s') := by
  have hfetch := lockstep.fetchTurns s.sched h
  have hitem := fetchTurns_readsItemInBlock s.sched s
  unfold Machine.step
  rw [h.pos, h.sched]
  split
  case h_1 i hp => exact h.exec i fun hi => by rw [contextOf_of_ready hinv hp] at hi; cases hi
  case h_2 =>
    split
    · generalize fetchTurns s.sched s = r, fetchTurns s.sched s' = r' at hfetch hitem ⊢
      cases hfetch with
      | more hu => exact ⟨_, _, rfl, rfl, hu⟩
      | instr i hu => exact hu.exec i hitem
      | abandon hu => exact hu.run
    · exact h.run

/-- Settles O36: states that `blind` makes one are states that differ only where nothing reads
(`readAlike_iff_blind_eq`), and a step keeps that (`ReadAlike.step`). Of the invariant it takes that no parsed command
is an item of a block. -/
theorem unspecifiedElementsUnread : Obligations.UnspecifiedElementsUnread := by
  unfold Obligations.UnspecifiedElementsUnread
  intro s s' hinv _ h
  obtain ⟨t, t', ht, ht', ha⟩ := (readAlike_iff_blind_eq.mpr h).step hinv
  exact ⟨t, t', ht, ht', readAlike_iff_blind_eq.mp ha⟩

end Sys2Proof.Machine
end

section
/-! PROOF. The wait and the role primitives, said out (R171, R174 to R176). -/

namespace Sys2Proof.Machine

/-- Settles O14: with a false condition each of the three other tests of `Wait` decides in its turn. -/
theorem waitOrder : Obligations.WaitOrder := by
  unfold Obligations.WaitOrder
  intro s r cancelable
  refine ⟨rfl, fun hs => ?_, fun hs ht => ?_, fun hs ht => ?_⟩
  · simp [wait, hs, State.stamp]
  · simp [wait, hs, ht, State.stamp]
  · simp [wait, hs, ht]

/-- Settles O15: no primitive has a branch; each is its writes. -/
theorem rolePrimitives : Obligations.RolePrimitives := by
  unfold Obligations.RolePrimitives
  exact fun s => ⟨rfl, rfl, rfl⟩

end Sys2Proof.Machine
end

section
/-! PROOF. The invariant position by position (R50, R171 to R215, R250): what it says, put together from the few things
that the foreground's steps keep or write. -/

namespace Sys2Proof.Machine

/-! ## What the positions share -/

/-- What the invariant says wherever the foreground stands (R11, R30, R52, R312, R340). -/
def State.Sound (s : State) : Prop :=
  s.cfg.ok = true ∧ s.sess.debugMode = false ∧ s.tmo.byteTimeout.toNat < 2 ^ s.cfg.byteTimeoutWidth.bits
  ∧ s.disp.cmdBuf.length ≤ s.cfg.maxCmdLen ∧ (s.abt.resumePending = !s.tmo.tickArmed)
  ∧ (s.abt.suspended = false ∨ s.abt.resumePending = true)

/-- Away from an idle leader a resume is due only while its suspend has not been noticed (R342). -/
def State.Attentive (s : State) : Prop := s.abt.resumePending = false ∨ s.abt.suspended = true

/-- The outputs of a role between two bytes, DAV, EOI and IFC apart (R174 to R177, R204). -/
def Role.Rests : Role → BusOut → Prop
  | .idle, o => o.atn = false ∧ o.nrfd = false ∧ o.ndac = false ∧ o.dioOe = false
  | .talker, o => o.nrfd = false ∧ o.ndac = false
  | .listener, o => o.atn = false ∧ o.nrfd = true ∧ o.ndac = true ∧ o.dioOe = false

/-- No byte is in flight, and off there is no role (R177, R289, R355). -/
def State.Rested (s : State) : Prop :=
  s.out.dav = false ∧ s.out.eoi = false ∧ s.out.ifc = false ∧ s.sess.role.Rests s.out
  ∧ (s.sess.powered = true ∨ s.sess.role = .idle)

/-- The timers stand still and are clear (R227, R293). -/
def State.Untimed (s : State) : Prop :=
  s.tmo.opActive = false ∧ s.tmo.useFirst = false ∧ s.tmo.byteCtr = 0#16 ∧ s.tmo.totalCtr = 0#16

/-- Nothing has failed (R40, R42). -/
def State.Unfailed (s : State) : Prop := s.abt.timedOut = false ∧ s.abt.failReason = none

/-- No operation is in progress and none has failed: a command can begin (R251, R259). -/
def State.Free (s : State) : Prop := s.Sound ∧ s.Rested ∧ s.Untimed ∧ s.Unfailed

/-- A command has been parsed and its operation, if it has one, has not begun (R250, R259). -/
def State.Parsed (s : State) : Prop := s.Free ∧ s.Attentive ∧ s.disp.phase = .dispatch

/-- An operation is in flight and timed (R36, R224). -/
def State.Operating (s : State) : Prop :=
  s.Sound ∧ s.Attentive ∧ s.disp.phase = .transfer ∧ s.tmo.opActive = true

/-- `Cleanup` is under way (R265). -/
def State.Closing (s : State) : Prop := s.Sound ∧ s.Attentive ∧ s.Rested ∧ s.disp.phase = .cleanup

/-- A command has begun and no byte is in flight: its reply can go out. -/
def State.Replying (s : State) : Prop := s.Parsed ∨ s.Operating ∧ s.Rested

/-- CORE has begun the operation of `c` and sources bytes. -/
def State.Sourcing (c : Command) (s : State) : Prop :=
  s.Operating ∧ s.sess.powered = true ∧ s.sess.role = .talker ∧ s.disp.curCmd = some c
  ∧ s.out.nrfd = false ∧ s.out.ndac = false ∧ s.out.ifc = false

/-- CORE has begun the operation of `c` and accepts bytes, with NRFD and NDAC as given. -/
def State.Accepting (c : Command) (nrfd ndac : Bool) (s : State) : Prop :=
  s.Operating ∧ s.sess.powered = true ∧ s.sess.role = .listener ∧ s.disp.curCmd = some c
  ∧ s.out.atn = false ∧ s.out.eoi = false ∧ s.out.dav = false ∧ s.out.nrfd = nrfd ∧ s.out.ndac = ndac
  ∧ s.out.ifc = false ∧ s.out.dioOe = false

/-- Between two bytes of a block-send whose end has not been taken (R190). -/
def State.InBlock (s : State) : Prop :=
  s.Sourcing .sendBlk ∧ s.out.dav = false ∧ s.out.eoi = false ∧ s.out.atn = false ∧ s.xfer.blockDone = false
  ∧ s.xfer.eoiPolicy = decide (s.sess.writeMode.toNat < 4)

/-- The byte `b` and its EOI are those of the operation that `SrcHandshake` returns to (R185, R190). -/
def SrcReturn.Fits (b : Byte) (eoi : Bool) (s : State) : SrcReturn → Prop
  | .command release => s.Sourcing (.busCmd b release) ∧ s.out.atn = true ∧ eoi = false
  | .data _ =>
    s.Sourcing .sendBlk ∧ s.out.atn = false ∧ eoi = false ∧ s.xfer.holdValid = true ∧ s.xfer.holdByte = b
    ∧ s.xfer.blockDone = false ∧ s.xfer.eoiPolicy = decide (s.sess.writeMode.toNat < 4)
  | .last =>
    s.Sourcing .sendBlk ∧ s.out.atn = false ∧ eoi = decide (s.sess.writeMode.toNat < 4) ∧ s.xfer.holdValid = true
    ∧ s.xfer.holdByte = b ∧ s.xfer.blockDone = true

/-! ## The positions -/

/-- Where a sequence of `HostPut`s stands, by what follows it. -/
def PutReturn.Fits (s : State) : PutReturn → Prop
  | .cleanup => s.Replying
  | .resync => s.Free ∧ s.Attentive ∧ s.disp.phase = .awaitCommand ∧ s.disp.curCmd = none
  | .item => s.InBlock
  | .blockStart | .captured _ | .blockEnd _ => s.Accepting .recvBlk true true
  | .nullByte | .rawByte => s.Accepting .recvByte true true

/-- What the invariant says of a state whose foreground stands at the position. -/
def Pos.Fits (s : State) : Pos → Prop
  | .leader =>
    s.Free ∧ s.disp.phase = .awaitLeader ∧ s.disp.curCmd = none ∧ s.disp.cmdBuf = []
    ∧ (s.disp.leaderIdx = 0 ∨ s.Attentive)
  | .body => s.Free ∧ s.Attentive ∧ s.disp.phase = .awaitCommand ∧ s.disp.curCmd = none
  | .resync =>
    s.Free ∧ s.Attentive ∧ (s.disp.phase = .awaitLeader ∨ s.disp.phase = .awaitCommand) ∧ s.disp.curCmd = none
  | .ready i => s.Parsed ∧ i.isCommand = true ∧ s.disp.curCmd.isSome = true
  | .put _ k => k.Fits s
  | .g2 b release =>
    s.Parsed ∧ s.sess.role = .talker ∧ s.sess.powered = true ∧ s.disp.curCmd = some (.busCmd b release)
  | .c1 b release => s.Sourcing (.busCmd b release) ∧ s.out.dav = false ∧ s.out.eoi = false
  | .c3 _ release =>
    ∃ b, s.Sourcing (.busCmd b release) ∧ s.out.dav = false ∧ s.out.eoi = false ∧ s.out.atn = true
  | .src st b eoi k =>
    k.Fits b eoi s ∧ (st = .s1 ∨ s.out.dioOe = true ∧ s.out.dio = b) ∧ st.drivenFits eoi s.out = true
  | .d2 => s.Parsed ∧ s.sess.role = .talker ∧ s.sess.powered = true ∧ s.disp.curCmd = some .sendBlk
  | .d3 =>
    s.Parsed ∧ s.sess.role = .talker ∧ s.sess.powered = true ∧ s.disp.curCmd = some .sendBlk ∧ s.out.atn = false
  | .b0 => s.Sourcing .sendBlk ∧ s.out.dav = false ∧ s.out.eoi = false ∧ s.out.atn = false
  | .item | .b3 _ => s.InBlock
  | .v2 =>
    (s.drive fun o => { o with atn := false }).Parsed ∧ s.sess.role = .listener ∧ s.sess.powered = true
    ∧ s.disp.curCmd = some .recvBlk
  | .v3 => s.Parsed ∧ s.sess.role = .listener ∧ s.sess.powered = true ∧ s.disp.curCmd = some .recvBlk
  | .w2 =>
    (s.drive fun o => { o with atn := false }).Parsed ∧ s.sess.role = .listener ∧ s.sess.powered = true
    ∧ s.disp.curCmd = some .recvByte
  | .w3 => s.Parsed ∧ s.sess.role = .listener ∧ s.sess.powered = true ∧ s.disp.curCmd = some .recvByte
  | .l0 | .l1 | .l6 _ | .l9 _ => s.Accepting .recvBlk true true
  | .l2 | .l2f _ | .l3 | .l4 _ _ => s.Accepting .recvBlk false true
  | .l7 _ | .l8 _ _ => s.Accepting .recvBlk true false
  | .y1 | .y6 | .y9 => s.Accepting .recvByte true true
  | .y2 | .y2f _ | .y3 | .y4 _ => s.Accepting .recvByte false true
  | .y7 | .y8 _ => s.Accepting .recvByte true false
  | .busReset .z1 _ => s.Replying ∧ s.sess.powered = true
  | .busReset .z2 _ => s.Replying ∧ s.sess.powered = true ∧ s.sess.role = .idle
  | .busReset .z3 _ =>
    (s.drive fun o => { o with ifc := false }).Replying ∧ s.sess.powered = true ∧ s.sess.role = .idle
    ∧ s.out.ifc = true
  | .k1 => s.Closing ∧ (s.tmo.opActive = true ∨ s.Untimed)
  | .k2 | .k3 => s.Closing ∧ s.Untimed
  | .drain => s.Closing ∧ s.Untimed ∧ s.disp.curCmd = some .sendBlk ∧ s.xfer.blockDone = false

/-- What the invariant says of a state. -/
def State.Fits (s : State) : Prop := s.pos.Fits s

/-! ## The invariant in four parts -/

/-- The clauses on the timers, the abort bits and the suspend (R36, R40, R50, R227, R342). -/
def State.ClockFits (s : State) : Prop :=
  s.pos.phaseFits s.disp.phase = true
  ∧ (s.tmo.opActive = true ∧ (s.disp.phase = .transfer ∨ s.pos = .k1) ∨ s.Untimed ∧ s.disp.phase ≠ .transfer)
  ∧ (s.disp.phase = .transfer ∨ s.disp.phase = .cleanup ∨ s.Unfailed)
  ∧ (s.Attentive ∨ s.pos = .leader ∧ s.disp.leaderIdx = 0)

/-- The clauses on the outputs. -/
def State.linesFit (s : State) : Bool :=
  s.roleFits && s.linesFitRole && s.handshakeFits && s.offIsReleased && s.drivenFits

/-- The clauses on the command and the transfer. -/
def State.taskFits (s : State) : Bool :=
  s.commandFits && s.blockFits && s.eoiFits && s.heldFits && (s.pos != .leader || s.disp.cmdBuf == [])

theorem timersFit_iff (s : State) : s.timersFit = true ↔
    s.tmo.opActive = true ∧ (s.disp.phase = .transfer ∨ s.pos = .k1) ∨ s.Untimed ∧ s.disp.phase ≠ .transfer := by
  cases h : s.tmo.opActive <;> simp [State.timersFit, State.Untimed, h, and_assoc, and_comm, and_left_comm]

theorem abortFits_iff (s : State) :
    s.abortFits = true ↔ s.disp.phase = .transfer ∨ s.disp.phase = .cleanup ∨ s.Unfailed := by
  simp [State.abortFits, State.Unfailed, or_assoc]

theorem suspendFits_iff (s : State) : s.suspendFits = true ↔
    (s.abt.resumePending = !s.tmo.tickArmed) ∧ (s.abt.suspended = false ∨ s.abt.resumePending = true)
    ∧ (s.Attentive ∨ s.pos = .leader ∧ s.disp.leaderIdx = 0) := by
  simp only [State.suspendFits, State.Attentive, Bool.and_eq_true, Bool.or_eq_true, Bool.not_eq_true', beq_iff_eq,
    and_assoc]

theorem bufferFits_iff (s : State) : s.bufferFits = true ↔
    s.disp.cmdBuf.length ≤ s.cfg.maxCmdLen ∧ (s.pos != .leader || s.disp.cmdBuf == []) = true := by
  simp [State.bufferFits]

theorem inv_iff_parts (s : State) :
    s.inv = true ↔ s.Sound ∧ s.ClockFits ∧ s.linesFit = true ∧ s.taskFits = true := by
  simp only [State.inv, State.linesFit, State.taskFits, State.ClockFits, State.Sound, Bool.and_eq_true, timersFit_iff,
    abortFits_iff, suspendFits_iff, bufferFits_iff, State.debugIsOff, Bool.not_eq_true', State.widthFits,
    decide_eq_true_eq, and_assoc]
  constructor
  · rintro ⟨hcfg, hphase, hrole, hlines, hbyte, hoff, hdebug, htimers, hwidth, habort, harmed, hresume, hatt, hbuffer,
      hempty, hcmd, hblock, heoi, hdriven, hheld⟩
    exact ⟨hcfg, hdebug, hwidth, hbuffer, harmed, hresume, hphase, htimers, habort, hatt, hrole, hlines, hbyte, hoff,
      hdriven, hcmd, hblock, heoi, hheld, hempty⟩
  · rintro ⟨hcfg, hdebug, hwidth, hbuffer, harmed, hresume, hphase, htimers, habort, hatt, hrole, hlines, hbyte, hoff,
      hdriven, hcmd, hblock, heoi, hheld, hempty⟩
    exact ⟨hcfg, hphase, hrole, hlines, hbyte, hoff, hdebug, htimers, hwidth, habort, harmed, hresume, hatt, hbuffer,
      hempty, hcmd, hblock, heoi, hdriven, hheld⟩

/-! ## The two are the same -/

theorem drive_sound (f : BusOut → BusOut) (s : State) : (s.drive f).Sound = s.Sound := rfl
theorem drive_untimed (f : BusOut → BusOut) (s : State) : (s.drive f).Untimed = s.Untimed := rfl
theorem drive_unfailed (f : BusOut → BusOut) (s : State) : (s.drive f).Unfailed = s.Unfailed := rfl
theorem drive_attentive (f : BusOut → BusOut) (s : State) : (s.drive f).Attentive = s.Attentive := rfl

/-- At each position the clauses compute to conditions on a few bits, and those are the table's. Where the position
leaves the role open, the clauses on the outputs are compared role by role. -/
theorem inv_iff_fits (s : State) : s.inv = true ↔ s.Fits := by
  rw [inv_iff_parts]
  unfold State.Fits State.ClockFits State.linesFit State.taskFits State.roleFits State.linesFitRole State.handshakeFits
    State.offIsReleased State.commandFits State.blockFits State.eoiFits State.drivenFits State.heldFits
  cases hp : s.pos
  all_goals
    delta Pos.phaseFits Pos.role Pos.davMay Pos.eoiMay Pos.nrfdMayDrop Pos.ndacMayDrop Pos.needsPower
      Pos.commandFits Pos.inSendLoop Pos.Fits
    dsimp only
  case leader | body | resync | ready | k1 | k2 | k3 | drain =>
    all_goals cases hr : s.sess.role <;>
      grind [Role.Rests, State.Closing, State.Parsed, State.Free, State.Rested]
  case put bs k =>
    cases k <;> dsimp only [PutReturn.Fits, State.Replying]
    case cleanup | resync =>
      all_goals cases hr : s.sess.role <;>
        grind [Role.Rests, State.Parsed, State.Operating, State.Free, State.Rested]
    case item => grind [State.Operating, State.Sourcing, State.InBlock]
    all_goals grind [State.Operating, State.Accepting]
  case busReset st r =>
    cases st <;> dsimp only [State.Replying] <;> cases hr : s.sess.role <;>
      grind [Role.Rests, State.drive, State.Parsed, State.Operating, State.Free, State.Rested, drive_sound,
        drive_untimed, drive_unfailed, drive_attentive]
  case g2 | d2 | d3 | v2 | v3 | w2 | w3 =>
    all_goals grind [Role.Rests, State.drive, State.Parsed, State.Free, State.Rested, drive_sound, drive_untimed,
      drive_unfailed, drive_attentive]
  case src st b e k =>
    cases k <;> dsimp only [SrcReturn.Fits, SrcReturn.underAttention] <;> cases st <;>
      grind [State.Operating, State.Sourcing, SrcStep.drivenFits]
  case c3 r release =>
    cases hc : s.disp.curCmd with
    | none => grind [State.Sourcing]
    | some c => cases c <;> dsimp only <;> grind [State.Operating, State.Sourcing]
  case c1 | b0 | item | b3 => all_goals grind [State.Operating, State.Sourcing, State.InBlock]
  all_goals grind [State.Operating, State.Accepting]

end Sys2Proof.Machine
end

section
/-! PROOF. The foreground keeps the invariant (R171 to R215, R264, R265): each step writes little of what its position
says, and what it leaves is what the next position says. -/

namespace Sys2Proof.Machine

variable {s : State} {c : Command} {b : Byte} {eoi : Bool} {k : SrcReturn}

/-! ## The end of an operation -/

theorem State.Sourcing.rested (h : s.Sourcing c) (hdav : s.out.dav = false) (heoi : s.out.eoi = false) : s.Rested := by
  obtain ⟨-, hpow, hrole, -, hnrfd, hndac, hifc⟩ := h
  exact ⟨hdav, heoi, hifc, by rw [hrole]; exact ⟨hnrfd, hndac⟩, .inl hpow⟩

theorem State.Accepting.rested (h : s.Accepting c true true) : s.Rested := by
  obtain ⟨-, hpow, hrole, -, hatn, heoi, hdav, hnrfd, hndac, hifc, hoe⟩ := h
  exact ⟨hdav, heoi, hifc, by rw [hrole]; exact ⟨hatn, hnrfd, hndac, hoe⟩, .inl hpow⟩

theorem State.Parsed.rested (h : s.Parsed) : s.Rested := by
  obtain ⟨⟨-, hrest, -⟩, -⟩ := h
  exact hrest

theorem State.Replying.rested (h : s.Replying) : s.Rested := h.elim State.Parsed.rested And.right

theorem State.Replying.toCleanup (h : s.Replying) : s.toCleanup.Fits := by
  obtain ⟨⟨hsound, hrest, huntimed, -⟩, hatt, -⟩ | ⟨⟨hsound, hatt, -, hop⟩, hrest⟩ := h
  · exact ⟨⟨hsound, hatt, hrest, rfl⟩, .inr huntimed⟩
  · exact ⟨⟨hsound, hatt, hrest, rfl⟩, .inl hop⟩

theorem State.Replying.replyWith (h : s.Replying) (bs : List Byte) : (s.replyWith bs).Fits := by
  cases bs with
  | nil => exact h.toCleanup
  | cons b rest => exact h

/-- However an operation ends, no byte is in flight and the power is on (R264). -/
theorem State.Replying.finish (h : s.Replying) (hpow : s.sess.powered = true) (w : Result) : (finish w s).Fits := by
  rcases finish_cases w s with ⟨-, he⟩ | ⟨r, -, -, he⟩ | ⟨r, -, -, he⟩ <;> rw [he]
  · exact h.toCleanup
  · exact ⟨h, hpow⟩
  · exact h

theorem State.Sourcing.finish (h : s.Sourcing c) (hdav : s.out.dav = false) (heoi : s.out.eoi = false) (w : Result) :
    (finish w s).Fits :=
  State.Replying.finish (.inr ⟨h.1, h.rested hdav heoi⟩) h.2.1 w

theorem State.Accepting.finish (h : s.Accepting c true true) (w : Result) : (finish w s).Fits :=
  State.Replying.finish (.inr ⟨h.1, h.rested⟩) h.2.1 w

theorem State.Accepting.receiveFin (h : s.Accepting .recvBlk true true) (w : Result) : (receiveFin w s).Fits := by
  unfold Machine.receiveFin
  split
  · exact h.finish _
  · exact h

/-! ## Polls -/

theorem putDone_fits {k : PutReturn} (h : k.Fits s) (sent : Bool) : (putDone k sent s).Fits := by
  cases k with
  | cleanup => exact State.Replying.toCleanup h
  | resync =>
    obtain ⟨hfree, hatt, hphase, hcmd⟩ := h
    exact ⟨hfree, hatt, .inr hphase, hcmd⟩
  | item => exact h
  | blockStart | captured _ =>
    cases sent with
    | true => exact h
    | false => exact State.Accepting.receiveFin h .suspended
  | blockEnd w => exact State.Accepting.finish h _
  | nullByte => exact State.Accepting.finish (s := s.stamp none) h .ok
  | rawByte =>
    cases sent with
    | true => exact h
    | false => exact State.Accepting.finish h .suspended

theorem putStep_fits {bs : List Byte} {k : PutReturn} (hp : s.pos = .put bs k) (h : k.Fits s) : (putStep bs k s).Fits := by
  cases bs with
  | nil => exact putDone_fits h _
  | cons b rest =>
    have hpush : k.Fits (s.push b) := by cases k <;> exact h
    unfold putStep
    rcases hostPut_cases b s with ⟨-, he⟩ | ⟨-, -, he⟩ | ⟨-, -, he⟩ <;> simp only [he]
    · exact putDone_fits h _
    · rw [State.Fits, hp]
      exact h
    · split
      · exact putDone_fits hpush _
      · cases k <;> exact hpush

/-- A bus wait polls again, or goes on with an outcome and at most a reason stamped (R171). -/
theorem polling_wait_fits {P : State → Prop} {cond cancelable : Bool} {r : Reason} {k : Result → State → State}
    (hs : s.Fits) (hP : P s) (hstamp : P (s.stamp (some r)))
    (hk : ∀ w u, w ∈ [.ok, .suspended, .failed r] ∨ cancelable = true → P u → (k w u).Fits) :
    (polling (wait cond r cancelable s) s k).Fits := by
  rcases wait_cases cond r cancelable s with ⟨-, h⟩ | ⟨-, -, h⟩ | ⟨-, -, -, h⟩ | ⟨-, -, -, hc, -, h⟩ | ⟨-, -, -, -, h⟩ <;>
    rw [h]
  · exact hk _ _ (.inl (by simp)) hP
  · exact hk _ _ (.inl (by simp)) hstamp
  · exact hk _ _ (.inl (by simp)) hstamp
  · exact hk _ _ (.inr hc) hP
  · exact hs

/-! ## `SrcHandshake` -/

/-- The handshake writes DAV, EOI and the data lines only. -/
theorem SrcReturn.Fits.drive (h : k.Fits b eoi s) {f : BusOut → BusOut}
    (hf : ∀ o, (f o).atn = o.atn ∧ (f o).nrfd = o.nrfd ∧ (f o).ndac = o.ndac ∧ (f o).ifc = o.ifc) :
    k.Fits b eoi (s.drive f) := by
  obtain ⟨hatn, hnrfd, hndac, hifc⟩ := hf s.out
  cases k <;> simp only [SrcReturn.Fits, State.Sourcing, State.drive_out, hatn, hnrfd, hndac, hifc] <;> exact h

theorem SrcReturn.Fits.stamp (h : k.Fits b eoi s) (r : Option Reason) : k.Fits b eoi (s.stamp r) := by
  cases k <;> exact h

theorem SrcReturn.Fits.byteDone (h : k.Fits b eoi s) : k.Fits b eoi s.byteDone := by
  cases k <;> exact h

theorem SrcReturn.Fits.goto (h : k.Fits b eoi s) (p : Pos) : k.Fits b eoi (s.goto p) := by
  cases k <;> exact h

/-- Both returns leave the byte delivered or given up, and DAV and EOI released. -/
theorem srcReturned_fits (h : k.Fits b eoi s) (hdav : s.out.dav = false) (heoi : s.out.eoi = false) :
    (srcReturned k s).Fits := by
  cases k with
  | command release =>
    obtain ⟨hsrc, hatn, -⟩ := h
    exact ⟨b, hsrc, hdav, heoi, hatn⟩
  | data next =>
    obtain ⟨hsrc, hatn, -, -, -, hdone, hpolicy⟩ := h
    exact ⟨hsrc, hdav, heoi, hatn, hdone, hpolicy⟩
  | last => exact State.Sourcing.finish (s := s.setXfer _) h.1 hdav heoi .ok

theorem srcFailed_fits (h : k.Fits b eoi s) (hdav : s.out.dav = false) (heoi : s.out.eoi = false) (w : Result) :
    (srcFailed w k s).Fits := by
  cases k with
  | command release =>
    obtain ⟨hsrc, hatn, -⟩ := h
    exact ⟨b, hsrc, hdav, heoi, hatn⟩
  | data next => exact State.Sourcing.finish h.1 hdav heoi _
  | last => exact State.Sourcing.finish (s := s.setXfer _) h.1 hdav heoi _

/-- A wait of the handshake goes on, or gives up with the lines as they are. -/
theorem srcWait_fits {st next : SrcStep} {cond : Bool} {r : Reason} (hp : s.pos = .src st b eoi k)
    (h : k.Fits b eoi s) (hdata : s.out.dioOe = true ∧ s.out.dio = b) (hst : st.drivenFits eoi s.out = true)
    (hnext : next.drivenFits eoi s.out = true)
    (hfail : ∀ w ∈ [Result.suspended, .failed r], (SrcStep.sf w).drivenFits eoi s.out = true) :
    (polling (wait cond r false s) s (srcWaited next b eoi k)).Fits := by
  refine polling_wait_fits (P := fun u => k.Fits b eoi u ∧ u.out = s.out) ?_ ⟨h, rfl⟩ ⟨h.stamp _, rfl⟩ ?_
  · rw [State.Fits, hp]
    exact ⟨h, .inr hdata, hst⟩
  · rintro w u hw ⟨hu, hout⟩
    rw [← hout] at hdata hnext hfail
    have goes (st' : SrcStep) (hdriven : st'.drivenFits eoi u.out = true) : (u.goto (.src st' b eoi k)).Fits :=
      ⟨hu.goto _, .inr hdata, hdriven⟩
    cases w with
    | ok => exact goes next hnext
    | _ => exact goes _ (hfail _ (by simpa only [List.mem_cons, reduceCtorEq, false_or, or_false, Bool.false_eq_true] using hw))

theorem srcStep_fits {st : SrcStep} (hp : s.pos = .src st b eoi k) (h : (Pos.src st b eoi k).Fits s) :
    (srcStep st b eoi k s).Fits := by
  obtain ⟨hk, hdata, hdriven⟩ := h
  have drives {f : BusOut → BusOut} {st' : SrcStep} (hf : ∀ o, (f o).atn = o.atn ∧ (f o).nrfd = o.nrfd ∧
      (f o).ndac = o.ndac ∧ (f o).ifc = o.ifc) (hdata : (f s.out).dioOe = true ∧ (f s.out).dio = b)
      (hdriven : st'.drivenFits eoi (f s.out) = true) : ((s.drive f).goto (.src st' b eoi k)).Fits :=
    ⟨(hk.drive hf).goto _, .inr hdata, hdriven⟩
  cases st with
  | s1 => exact drives (fun _ => ⟨rfl, rfl, rfl, rfl⟩) ⟨rfl, rfl⟩ hdriven
  | s2 | s3 =>
    refine srcWait_fits hp hk (hdata.resolve_left nofun) hdriven hdriven ?_
    simp_all [SrcStep.drivenFits]
  | s4 =>
    cases eoi with
    | true => 
      refine drives (fun _ => ⟨rfl, rfl, rfl, rfl⟩) (hdata.resolve_left nofun) ?_
      simp_all [SrcStep.drivenFits]
    | false => 
      refine drives (f := id) (fun _ => ⟨rfl, rfl, rfl, rfl⟩) (hdata.resolve_left nofun) ?_
      simp_all [SrcStep.drivenFits]
  | s5 => 
    refine drives (fun _ => ⟨rfl, rfl, rfl, rfl⟩) (hdata.resolve_left nofun) ?_
    simp_all [SrcStep.drivenFits]
  | s6 =>
    refine srcWait_fits hp hk (hdata.resolve_left nofun) hdriven hdriven ?_
    simp_all [SrcStep.drivenFits]
  | s7 => exact drives (fun _ => ⟨rfl, rfl, rfl, rfl⟩) (hdata.resolve_left nofun) rfl
  | s8 =>
    simp only [SrcStep.drivenFits, Bool.and_eq_true, Bool.not_eq_true'] at hdriven
    exact srcReturned_fits hk.byteDone hdriven.1 hdriven.2
  | sf w =>
    exact srcFailed_fits (s := s.drive fun o => { o with dav := false, eoi := false })
      (hk.drive fun _ => ⟨rfl, rfl, rfl, rfl⟩) rfl rfl w

/-! ## The acceptor's steps -/

theorem receiveL2_fits (hp : s.pos = .l2) (h : s.Accepting .recvBlk false true) : (receiveL2 s).Fits := by
  refine polling_wait_fits (P := State.Accepting .recvBlk false true) (by rwa [State.Fits, hp]) h h fun w u _ hu => ?_
  split <;> exact hu

theorem receiveL7_fits (hp : s.pos = .l7 eoi) (h : s.Accepting .recvBlk true false) : (receiveL7 eoi s).Fits :=
  polling_wait_fits (P := State.Accepting .recvBlk true false) (by rwa [State.Fits, hp]) h h fun _ _ _ hu => hu

theorem receiveByteY2_fits (hp : s.pos = .y2) (h : s.Accepting .recvByte false true) : (receiveByteY2 s).Fits := by
  refine polling_wait_fits (P := State.Accepting .recvByte false true) (by rwa [State.Fits, hp]) h h fun w u _ hu => ?_
  split <;> exact hu

theorem receiveByteY7_fits (hp : s.pos = .y7) (h : s.Accepting .recvByte true false) : (receiveByteY7 s).Fits :=
  polling_wait_fits (P := State.Accepting .recvByte true false) (by rwa [State.Fits, hp]) h h fun _ _ _ hu => hu

theorem State.Accepting.driveNrfd {nrfd ndac : Bool} (h : s.Accepting c nrfd ndac) (nrfd' : Bool) :
    (s.drive fun o => { o with nrfd := nrfd' }).Accepting c nrfd' ndac := by
  obtain ⟨hop, hpow, hrole, hcmd, hatn, heoi, hdav, -, hndac, hifc, hoe⟩ := h
  exact ⟨hop, hpow, hrole, hcmd, hatn, heoi, hdav, rfl, hndac, hifc, hoe⟩

theorem State.Accepting.driveNdac {nrfd ndac : Bool} (h : s.Accepting c nrfd ndac) (ndac' : Bool) :
    (s.drive fun o => { o with ndac := ndac' }).Accepting c nrfd ndac' := by
  obtain ⟨hop, hpow, hrole, hcmd, hatn, heoi, hdav, hnrfd, -, hifc, hoe⟩ := h
  exact ⟨hop, hpow, hrole, hcmd, hatn, heoi, hdav, hnrfd, rfl, hifc, hoe⟩

theorem receiveL8_fits {w : Result} (h : s.Accepting .recvBlk true false) : (receiveL8 w eoi s).Fits := by
  have hasserted := h.driveNdac true
  simp only [receiveL8]
  split
  · exact hasserted
  · exact hasserted.receiveFin w

theorem receiveL9_fits (h : s.Accepting .recvBlk true true) : (receiveL9 eoi s).Fits := by
  unfold receiveL9
  split
  · exact State.Accepting.receiveFin (s := s.byteDone) h .ok
  · exact h

theorem receiveByteY2Failed_fits {w : Result} (h : s.Accepting .recvByte false true) :
    (receiveByteY2Failed w s).Fits := by
  have hasserted := h.driveNrfd true
  simp only [receiveByteY2Failed]
  split
  · exact hasserted.finish .suspended
  · exact hasserted

theorem receiveByteY8_fits {w : Result} (h : s.Accepting .recvByte true false) : (receiveByteY8 w s).Fits := by
  have hasserted := h.driveNdac true
  simp only [receiveByteY8]
  split
  · exact hasserted
  · exact hasserted.finish w

/-! ## Where an operation begins -/

/-- `BeginOp` (R224) after a command's first lines. -/
theorem State.Parsed.beginOp (h : s.Parsed) : (s.beginOp.setPhase .transfer).Operating := by
  obtain ⟨⟨hsound, -⟩, hatt, -⟩ := h
  exact ⟨hsound, hatt, rfl, rfl⟩

theorem State.Parsed.sourcing (h : s.Parsed) (hrole : s.sess.role = .talker) (hpow : s.sess.powered = true)
    (hcmd : s.disp.curCmd = some c) : (s.beginOp.setPhase .transfer).Sourcing c := by
  obtain ⟨-, -, hifc, hlines, -⟩ := h.rested
  rw [hrole] at hlines
  exact ⟨h.beginOp, hpow, hrole, hcmd, hlines.1, hlines.2, hifc⟩

theorem State.Parsed.accepting (h : s.Parsed) (hrole : s.sess.role = .listener) (hpow : s.sess.powered = true)
    (hcmd : s.disp.curCmd = some c) : (s.beginOp.setPhase .transfer).Accepting c true true := by
  obtain ⟨hdav, heoi, hifc, hlines, -⟩ := h.rested
  rw [hrole] at hlines
  obtain ⟨hatn, hnrfd, hndac, hoe⟩ := hlines
  exact ⟨h.beginOp, hpow, hrole, hcmd, hatn, heoi, hdav, hnrfd, hndac, hifc, hoe⟩

theorem State.Parsed.quiet (h : s.Parsed) : s.out.dav = false ∧ s.out.eoi = false := by
  obtain ⟨hdav, heoi, -⟩ := h.rested
  exact ⟨hdav, heoi⟩

theorem SrcStep.drivenFits_s1 {o : BusOut} (hdav : o.dav = false) (heoi : o.eoi = false) :
    SrcStep.s1.drivenFits eoi o = true := by
  simp only [SrcStep.drivenFits, hdav, heoi, Bool.not_false, Bool.and_self]

theorem busCmdG2_fits {release : Bool} (h : (Pos.g2 b release).Fits s) : (busCmdG2 b release s).Fits := by
  obtain ⟨hparsed, hrole, hpow, hcmd⟩ := h
  obtain ⟨hdav, heoi⟩ := hparsed.quiet
  exact ⟨hparsed.sourcing hrole hpow hcmd, hdav, heoi⟩

theorem sendCommandC1_fits {release : Bool} (h : (Pos.c1 b release).Fits s) : (sendCommandC1 b release s).Fits := by
  obtain ⟨hsrc, hdav, heoi⟩ := h
  exact ⟨⟨hsrc, rfl, rfl⟩, .inl rfl, SrcStep.drivenFits_s1 hdav heoi⟩

theorem sendCommandC3_fits {w : Result} {release : Bool} (h : (Pos.c3 w release).Fits s) :
    (sendCommandC3 w release s).Fits := by
  obtain ⟨b, hsrc, hdav, heoi, -⟩ := h
  unfold sendCommandC3
  split
  · exact hsrc.finish hdav heoi w
  · exact State.Sourcing.finish (s := s.drive fun o => { o with atn := false }) hsrc hdav heoi w

theorem sendBlkD2_fits (h : Pos.d2.Fits s) : (sendBlkD2 s).Fits := by
  obtain ⟨⟨⟨hsound, ⟨hdav, heoi, hifc, hlines, hon⟩, hfree⟩, hatt, hphase⟩, hrole, hpow, hcmd⟩ := h
  have hrest : (s.drive fun o => { o with atn := false }).Rested :=
    ⟨hdav, heoi, hifc, by simp only [State.drive_sess, State.drive_out, hrole] at hlines ⊢; exact hlines, hon⟩
  exact ⟨⟨⟨hsound, hrest, hfree⟩, hatt, hphase⟩, hrole, hpow, hcmd, rfl⟩

theorem sendBlkD3_fits (h : Pos.d3.Fits s) : (sendBlkD3 s).Fits := by
  obtain ⟨hparsed, hrole, hpow, hcmd, hatn⟩ := h
  obtain ⟨hdav, heoi⟩ := hparsed.quiet
  exact ⟨hparsed.sourcing hrole hpow hcmd, hdav, heoi, hatn⟩

/-- D3 and B0 find attention released (R284). -/
theorem sendBlockB0_fits (h : Pos.b0.Fits s) : (sendBlockB0 s).Fits := by
  obtain ⟨hsrc, hdav, heoi, hatn⟩ := h
  exact ⟨hsrc, hdav, heoi, hatn, rfl, rfl⟩

/-! ## Bus reset and `Cleanup` -/

/-- `ReleaseBus` leaves no role and every line released (R176). -/
theorem State.Replying.releaseBus (h : s.Replying) : s.releaseBus.Replying := by
  obtain ⟨-, -, hifc, -, -⟩ := h.rested
  have hrest : s.releaseBus.Rested := ⟨rfl, rfl, hifc, ⟨rfl, rfl, rfl, rfl⟩, .inr rfl⟩
  obtain ⟨⟨hsound, -, huntimed, hunfailed⟩, hatt, hphase⟩ | ⟨hop, -⟩ := h
  · exact .inl ⟨⟨hsound, hrest, huntimed, hunfailed⟩, hatt, hphase⟩
  · exact .inr ⟨hop, hrest⟩

theorem drive_ifc_eq_self (h : s.out.ifc = false) : (s.drive fun o => { o with ifc := false }) = s := by
  have hout : { s.out with ifc := s.out.ifc } = s.out := rfl
  rw [h] at hout
  rw [State.drive, hout]

theorem busResetStep_fits {st : ResetStep} (reply : Byte) (h : (Pos.busReset st reply).Fits s) :
    (busResetStep st reply s).Fits := by
  cases st with
  | z1 =>
    obtain ⟨hreply, hpow⟩ := h
    exact ⟨hreply.releaseBus, hpow, rfl⟩
  | z2 =>
    obtain ⟨hreply, hpow, hrole⟩ := h
    have hifc : (s.drive fun o => { o with ifc := false }).Replying := by
      obtain ⟨-, -, hifc, -⟩ := hreply.rested
      rwa [drive_ifc_eq_self hifc]
    exact ⟨hifc, hpow, hrole, rfl⟩
  | z3 => exact h.1

theorem Cfg.resetByteTimeout_lt {cfg : Cfg} (h : cfg.ok = true) :
    cfg.resetByteTimeout.toNat < 2 ^ cfg.byteTimeoutWidth.bits := by
  simp only [Cfg.ok, Bool.and_eq_true, decide_eq_true_eq] at h
  exact h.2

/-- `LoadDefaults; powered <- 0` releases every line and stops the timers (R60, R288). -/
theorem State.Sound.powerOff (h : s.Sound) : s.powerOff.Sound ∧ s.powerOff.Rested ∧ s.powerOff.Untimed := by
  obtain ⟨hcfg, -, -, hbuffer, harmed, hresume⟩ := h
  exact ⟨⟨hcfg, rfl, Cfg.resetByteTimeout_lt hcfg, hbuffer, harmed, hresume⟩,
    ⟨rfl, rfl, rfl, ⟨rfl, rfl, rfl, rfl⟩, .inr rfl⟩, rfl, rfl, rfl, rfl⟩

/-- The cycle start leaves a resume to the first byte of the next cycle (R251, R342). -/
theorem cycleStart_fits (hsound : s.Sound) (hrest : s.Rested) (hu : s.Untimed) : s.cycleStart.Fits := by
  obtain ⟨hcfg, hdebug, hwidth, -, harmed, -⟩ := hsound
  exact ⟨⟨⟨hcfg, hdebug, hwidth, Nat.zero_le _, harmed, .inl rfl⟩, hrest, hu, rfl, rfl⟩, rfl, rfl, rfl, .inl rfl⟩

theorem cleanupK1_fits (h : Pos.k1.Fits s) : (cleanupK1 s).Fits := ⟨h.1, rfl, rfl, rfl, rfl⟩

theorem cleanupK2_fits (h : Pos.k2.Fits s) : (cleanupK2 s).Fits := by
  obtain ⟨hclosing, huntimed⟩ := h
  unfold cleanupK2
  split
  case isTrue hdrain => exact ⟨hclosing, huntimed, hdrain.1, hdrain.2.1⟩
  case isFalse => exact ⟨hclosing, huntimed⟩

theorem cleanupK3_fits (h : Pos.k3.Fits s) : (cleanupK3 s).Fits := by
  obtain ⟨⟨hsound, -, hrest, -⟩, huntimed⟩ := h
  unfold cleanupK3
  split
  · obtain ⟨hsound', hrest', huntimed'⟩ := hsound.powerOff
    exact cycleStart_fits (s := s.suspendCleanup) hsound' hrest' huntimed'
  · exact cycleStart_fits hsound hrest huntimed

/-! ## One foreground step -/

/-- Every step away from a resync, by the lemma about its position. -/
theorem fg_fits (h : s.Fits) (hr : s.pos ≠ .resync) : (fg s).Fits := by
  have hs := h
  unfold State.Fits at h
  unfold fg
  cases hp : s.pos
  all_goals rw [hp] at h
  case leader | body | item | drain | ready => exact hs
  case resync => exact absurd hp hr
  case put => exact putStep_fits hp h
  case src => exact srcStep_fits hp h
  case busReset => exact busResetStep_fits _ h
  case k1 => exact cleanupK1_fits h
  case k2 => exact cleanupK2_fits h
  case k3 => exact cleanupK3_fits h
  case g2 => exact busCmdG2_fits h
  case c1 => exact sendCommandC1_fits h
  case c3 => exact sendCommandC3_fits h
  case d2 => exact sendBlkD2_fits h
  case d3 => exact sendBlkD3_fits h
  case b0 => exact sendBlockB0_fits h
  case b3 => exact h
  case v2 | w2 => exact h
  case v3 | w3 =>
    obtain ⟨hparsed, hrole, hpow, hcmd⟩ := h
    exact hparsed.accepting hrole hpow hcmd
  case l2 => exact receiveL2_fits hp h
  case l7 => exact receiveL7_fits hp h
  case y2 => exact receiveByteY2_fits hp h
  case y7 => exact receiveByteY7_fits hp h
  case l0 | l3 | y3 => exact h
  case l1 | l4 | y1 | y4 => exact State.Accepting.driveNrfd h _
  case l6 | y6 => exact State.Accepting.driveNdac h _
  case l2f w => exact (State.Accepting.driveNrfd h true).receiveFin w
  case l8 => exact receiveL8_fits h
  case l9 => exact receiveL9_fits h
  case y2f => exact receiveByteY2Failed_fits h
  case y8 => exact receiveByteY8_fits h
  case y9 => exact State.Accepting.finish (s := s.byteDone) h .ok

end Sys2Proof.Machine
end

section
/-! PROOF. Events and the polls of `HostGet` keep the invariant, and with them a run (R73, R91, R93, R222, R254, R340,
R342). -/

namespace Sys2Proof.Machine

variable {s : State}

/-! ## The events -/

/-- A tick that counts finds an operation in flight, so it may set the timeout flag (R36, R40, R222). -/
theorem tick_inv (h : s.inv = true) : (tick s).inv = true := by
  obtain ⟨hsound, ⟨hphase, htimed, hfailed, hatt⟩, hlines, htask⟩ := (inv_iff_parts s).mp h
  unfold tick
  split
  case isFalse => exact h
  case isTrue hrun =>
    have hop : s.tmo.opActive = true := (Bool.and_eq_true_iff.mp hrun).2
    have hplace : s.disp.phase = .transfer ∨ s.pos = .k1 := by
      obtain h | ⟨⟨hnop, -⟩, -⟩ := htimed
      · exact h.2
      · rw [hop] at hnop; cases hnop
    have hphase' : s.disp.phase = .transfer ∨ s.disp.phase = .cleanup := by
      obtain h | h := hplace
      · exact .inl h
      · rw [h] at hphase; exact .inr (eq_of_beq hphase)
    exact (inv_iff_parts _).mpr
      ⟨hsound, ⟨hphase, .inl ⟨hop, hplace⟩, hphase'.elim .inl fun h => .inr (.inl h), hatt⟩, hlines, htask⟩

/-- A suspend is still to be noticed, and its resume is due (R340). -/
theorem suspendEvent_inv (h : s.inv = true) : (suspendEvent s).inv = true := by
  obtain ⟨⟨hcfg, hdebug, hwidth, hbuffer, -, -⟩, ⟨hphase, htimed, hfailed, -⟩, hlines, htask⟩ := (inv_iff_parts s).mp h
  exact (inv_iff_parts _).mpr ⟨⟨hcfg, hdebug, hwidth, hbuffer, rfl, .inr rfl⟩,
    ⟨hphase, htimed, hfailed, .inl (.inr rfl)⟩, hlines, htask⟩

/-- Power-on reset under an allowed configuration (R61, R62). -/
theorem por_inv (h : s.inv = true) : s.por.inv = true := by
  obtain ⟨⟨hcfg, -⟩, -⟩ := (inv_iff_parts s).mp h
  exact (inv_iff_fits _).mpr ⟨⟨⟨hcfg, rfl, Cfg.resetByteTimeout_lt hcfg, Nat.zero_le _, rfl, .inl rfl⟩,
    ⟨rfl, rfl, rfl, ⟨rfl, rfl, rfl, rfl⟩, .inr rfl⟩, ⟨rfl, rfl, rfl, rfl⟩, rfl, rfl⟩, rfl, rfl, rfl, .inl rfl⟩

theorem act_inv (e : Event) (s : State) (h : s.inv = true) : (e.act s).inv = true := by
  cases e with
  | tick => exact tick_inv h
  | suspend => exact suspendEvent_inv h
  | por => exact por_inv h
  | hostByte _ | rxFlush | inputs _ => exact h

/-- The schedule is no part of what the invariant speaks of. -/
theorem setSched_inv (s : State) (ts : List Turn) (h : s.inv = true) : ({ s with sched := ts } : State).inv = true := h

/-! ## The polls of `HostGet` -/

/-- The latch and the bytes sent are no part of what the invariant speaks of. -/
theorem srqPoll_inv (h : s.inv = true) : (srqPoll s).inv = true := by
  rcases srqPoll_cases s with he | he | he <;> rw [he] <;> exact h

/-- A byte is taken while no suspend is pending, and then no resume is due (R73, R342). -/
theorem took_inv (hs : s.abt.suspended = false) (rest : List Byte) (h : s.inv = true) :
    (s.took rest).inv = true ∧ (s.took rest).Attentive := by
  cases hr : s.abt.resumePending with
  | false =>
    have he : s.took rest = { s with rx := rest } := by simp [State.took, State.resumed, hr]
    rw [he]
    exact ⟨h, .inl hr⟩
  | true =>
    have he : s.took rest = { s with
        rx := rest
        tmo := { s.tmo with tickArmed := true, byteCtr := 0#16, totalCtr := 0#16 }
        abt := { s.abt with resumePending := false } } := by simp [State.took, State.resumed, hr]
    rw [he]
    obtain ⟨⟨hcfg, hdebug, hwidth, hbuffer, -, -⟩, ⟨hphase, htimed, hfailed, -⟩, hlines, htask⟩ :=
      (inv_iff_parts s).mp h
    refine ⟨(inv_iff_parts _).mpr ⟨⟨hcfg, hdebug, hwidth, hbuffer, rfl, .inl hs⟩,
      ⟨hphase, ?_, hfailed, .inl (.inl rfl)⟩, hlines, htask⟩, .inl rfl⟩
    exact htimed.imp_right fun ⟨⟨hop, hfirst, _, _⟩, hne⟩ => ⟨⟨hop, hfirst, rfl, rfl⟩, hne⟩

/-- What a poll of `HostGet` keeps: the invariant in a state at the same position; a byte is given with no resume due. -/
def GetPoll.Keeps (p : Pos) : GetPoll → Prop
  | .abort => True
  | .empty t => t.inv = true ∧ t.pos = p
  | .byte _ t => t.inv = true ∧ t.pos = p ∧ t.Attentive

theorem hostGet_keeps (h : s.inv = true) : (hostGet s).Keeps s.pos := by
  rcases hostGet_cases s with ⟨-, he⟩ | ⟨-, -, he⟩ | ⟨b, rest, hs, hr, -⟩
  · rw [he]; trivial
  · rw [he]
    show (ite _ _ _ : State).inv = true ∧ (ite _ _ _ : State).pos = s.pos
    split
    · refine ⟨srqPoll_inv h, ?_⟩
      rcases srqPoll_cases s with he | he | he <;> rw [he]
      all_goals rfl
    · exact ⟨h, rfl⟩
  · rw [hostGet_took hs hr]
    exact ⟨(took_inv hs rest h).1, State.took_pos s rest, (took_inv hs rest h).2⟩

/-! ## A run -/

theorem State.Free.toCleanup (h : s.Free) (hatt : s.Attentive) : s.toCleanup.inv = true := by
  obtain ⟨hsound, hrest, huntimed, -⟩ := h
  exact (inv_iff_fits _).mpr ⟨⟨hsound, hatt, hrest, rfl⟩, .inr huntimed⟩

theorem fits_at {p : Pos} (h : s.inv = true) (hp : s.pos = p) : p.Fits s := hp ▸ (inv_iff_fits s).mp h

theorem inv_of_fits_at {p : Pos} (hp : s.pos = p) (h : p.Fits s) : s.inv = true :=
  (inv_iff_fits s).mpr (by rwa [State.Fits, hp])

theorem resyncStep_inv (hp : s.pos = .resync) (h : s.inv = true) : (resyncStep s).inv = true := by
  have hk := hostGet_keeps h
  rw [hp] at hk
  unfold resyncStep
  generalize hostGet s = g at hk ⊢
  cases g with
  | abort =>
    obtain ⟨hfree, hatt, -⟩ := fits_at h hp
    exact hfree.toCleanup hatt
  | empty t => exact hk.1
  | byte b t =>
    obtain ⟨ht, hpt, -⟩ := hk
    obtain ⟨hfree, hatt, -⟩ := fits_at ht hpt
    show (ite _ _ _ : State).inv = true
    split
    · exact hfree.toCleanup hatt
    · exact ht

theorem fg_inv (s : State) (h : s.inv = true) : (fg s).inv = true := by
  by_cases hp : s.pos = .resync
  · simpa only [fg, hp] using resyncStep_inv hp h
  · exact (inv_iff_fits _).mpr (fg_fits ((inv_iff_fits s).mp h) hp)

theorem run_inv (h : s.inv = true) : s.run.inv = true :=
  runTurns_keeps (fun u => u.inv = true) act_inv fg_inv setSched_inv s.sched s h

end Sys2Proof.Machine
end

section
/-! PROOF. The instructions keep the invariant (R141 to R146, R190, R259, R266): a command from where it has been parsed,
an item from where items are taken. -/

namespace Sys2Proof.Machine

variable {s : State} {i : Instr} {cfg : Cfg} {c : Command}

/-! ## Items of a block -/

/-- What a token does in `SendBlock` (R143, R190). -/
theorem onToken_live_fits (h : s.InBlock) (t : Token) : (onToken .live t s).Fits := by
  obtain ⟨hsrc, hdav, heoi, hatn, hdone, hpolicy⟩ := h
  have hdriven (eoi : Bool) : SrcStep.s1.drivenFits eoi s.out = true := SrcStep.drivenFits_s1 hdav heoi
  cases t with
  | more | checkpoint => exact ⟨hsrc, hdav, heoi, hatn, hdone, hpolicy⟩
  | data b =>
    simp only [onToken, sendBlockB2]
    split
    case isTrue hv => exact ⟨⟨hsrc, hatn, rfl, hv, rfl, hdone, hpolicy⟩, .inl rfl, hdriven _⟩
    case isFalse => exact ⟨hsrc, hdav, heoi, hatn, hdone, hpolicy⟩
  | finish =>
    simp only [onToken, sendBlockB4]
    split
    case isTrue hv => exact ⟨⟨hsrc, hatn, hpolicy, hv, rfl, rfl⟩, .inl rfl, hdriven _⟩
    case isFalse => exact State.Sourcing.finish (s := s.setXfer _) hsrc hdav heoi .ok
  | violation =>
    exact State.Sourcing.finish (s := (s.setXfer _).stamp (some .frameError)) hsrc hdav heoi (.failed .frameError)

/-- What a token does in the drain (R266). -/
theorem onToken_drain_fits (h : Pos.drain.Fits s) (t : Token) : (onToken .drain t s).Fits := by
  cases t with
  | more | data _ | checkpoint => exact h
  | finish | violation => exact ⟨h.1, h.2.1⟩

/-- The codec state and `seen_first` are no part of what the invariant speaks of. -/
theorem State.InBlock.setCodec (h : s.InBlock) (st : CodecState) (seen : Bool) :
    (s.setXfer fun x => { x with codec := st, seenFirst := seen }).InBlock := h

theorem drain_fits_setCodec (h : Pos.drain.Fits s) (st : CodecState) (seen : Bool) :
    Pos.drain.Fits (s.setXfer fun x => { x with codec := st, seenFirst := seen }) := h

theorem decodeByte_inv (h : s.inv = true) (hp : s.pos.takesItems = true) (st : CodecState) (b : Byte) :
    (decodeByte st b s).inv = true := by
  refine (inv_iff_fits _).mpr ?_
  cases hpos : s.pos with
  | item =>
    have hlive := fits_at h hpos
    simp only [decodeByte, decMode_item hpos]
    exact onToken_live_fits (hlive.setCodec _ _) _
  | drain =>
    have hdrain := fits_at h hpos
    simp only [decodeByte, decMode_drain hpos]
    exact onToken_drain_fits (drain_fits_setCodec hdrain _ _) _
  | _ => rw [hpos] at hp; cases hp

/-! ## The beginning of a command -/

/-- While `Execute` has not begun it is `c` that is to be executed, under the configuration `cfg` (R259). -/
def State.Awaits (cfg : Cfg) (c : Command) (s : State) : Prop :=
  s.inv = true ∧ s.cfg = cfg ∧ (s.pos.isReady = true → s.disp.curCmd = some c)

theorem act_awaits (e : Event) (s : State) (h : s.Awaits cfg c) : (e.act s).Awaits cfg c := by
  obtain ⟨hinv, hcfg, hcmd⟩ := h
  refine ⟨act_inv e s hinv, (act_cfg e s).trans hcfg, ?_⟩
  cases e with
  | por => exact nofun
  | tick =>
    show (tick s).pos.isReady = true → (tick s).disp.curCmd = some c
    rw [tick_pos, tick_disp]
    exact hcmd
  | _ => exact hcmd

theorem parsed_of_ready (h : s.inv = true) (hr : s.pos.isReady = true) :
    ∃ i, s.pos = .ready i ∧ s.Parsed ∧ i.isCommand = true := by
  cases hp : s.pos with
  | ready i =>
    obtain ⟨hparsed, hi, -⟩ := fits_at h hp
    exact ⟨i, rfl, hparsed, hi⟩
  | _ => rw [hp] at hr; cases hr

theorem beginTurns_inv {line : State → State} 
    (hline : ∀ u, u.pos.isReady = true → u.Awaits cfg c → (line u).Awaits cfg c) (ts : List Turn)
    (h : s.Awaits cfg c) : (beginTurns line ts s).inv = true := by
  induction ts generalizing s with
  | nil => exact h.1
  | cons t ts ih =>
    have ht : (s.turn t).Awaits cfg c := turn_keeps (State.Awaits cfg c) act_awaits t s h
    simp only [beginTurns]
    split
    case isTrue hr =>
      have hl := hline _ hr ht
      split
      · exact ih hl
      · exact runTurns_keeps (fun u => u.inv = true) act_inv fg_inv setSched_inv ts _ hl.1
    case isFalse => exact ht.1

theorem dispatched_awaits (hi : i.isCommand = true) (hfree : s.Free) (hatt : s.Attentive) :
    (s.dispatched i c).Awaits s.cfg c :=
  ⟨(inv_iff_fits _).mpr ⟨⟨hfree, hatt, rfl⟩, hi, rfl⟩, rfl, fun _ => rfl⟩

/-- Off there is no role to release, so the implicit power-on leaves the bus as it is (R260, R289). -/
theorem powerOn_awaits (hr : s.pos.isReady = true) (hoff : s.sess.powered ≠ true) (h : s.Awaits cfg c) :
    s.powerOn.Awaits cfg c := by
  obtain ⟨hinv, hcfg, hcmd⟩ := h
  obtain ⟨i, hp, ⟨⟨hsound, ⟨hdav, heoi, hifc, hlines, hon⟩, hfree⟩, hatt, hphase⟩, hi⟩ := parsed_of_ready hinv hr
  have hrole : s.sess.role = .idle := hon.resolve_left hoff
  have hrest : s.powerOn.Rested := ⟨hdav, heoi, hifc, by rw [hrole] at hlines; exact hlines, .inl rfl⟩
  have hsome : s.powerOn.disp.curCmd.isSome = true := Option.isSome_iff_exists.mpr ⟨c, hcmd hr⟩
  have hready : (Pos.ready i).Fits s.powerOn := ⟨⟨⟨hsound, hrest, hfree⟩, hatt, hphase⟩, hi, hsome⟩
  exact ⟨inv_of_fits_at (s := s.powerOn) hp hready, hcfg, hcmd⟩

/-- A command whose first line, run with the power on, keeps the invariant, keeps it to its end or as far as the turns
go. -/
theorem execute_inv (hi : i.isCommand = true) (c : Command) {line : State → State}
    (hline : ∀ u, u.Parsed → u.sess.powered = true → u.disp.curCmd = some c → u.cfg = s.cfg → (line u).Fits)
    (hgone : ∀ u, (line u).pos.isReady = false) (hcfg : ∀ u, (line u).cfg = u.cfg) (hfree : s.Free)
    (hatt : s.Attentive) : (execute i c line s).inv = true := by
  refine beginTurns_inv (cfg := s.cfg) (c := c) (fun u hr hu => ?_) _ (dispatched_awaits hi hfree hatt)
  unfold poweredLine
  split
  case isTrue hpow =>
    obtain ⟨hinv, hcfgu, hcmd⟩ := hu
    obtain ⟨-, -, hparsed, -⟩ := parsed_of_ready hinv hr
    refine ⟨(inv_iff_fits _).mpr (hline u hparsed hpow (hcmd hr) hcfgu), (hcfg u).trans hcfgu, fun h => ?_⟩
    rw [hgone u] at h
    cases h
  case isFalse hoff => exact powerOn_awaits hr hoff hu

/-! ## First lines -/

theorem State.Parsed.needTalker (h : s.Parsed) (hpow : s.sess.powered = true) :
    s.needTalker.Parsed ∧ s.needTalker.sess.role = .talker ∧ s.needTalker.sess.powered = true
    ∧ s.needTalker.disp.curCmd = s.disp.curCmd := by
  unfold State.needTalker
  split
  case isTrue hrole => exact ⟨h, hrole, hpow, rfl⟩
  case isFalse =>
    obtain ⟨⟨hsound, ⟨hdav, heoi, hifc, -, -⟩, hfree⟩, hatt, hphase⟩ := h
    exact ⟨⟨⟨hsound, ⟨hdav, heoi, hifc, ⟨rfl, rfl⟩, .inl hpow⟩, hfree⟩, hatt, hphase⟩, rfl, hpow, rfl⟩

/-- A talker that becomes a listener may bring attention along, until V2 or W2 (R175, R285). -/
theorem State.Parsed.needListener (h : s.Parsed) (hpow : s.sess.powered = true) :
    (s.needListener.drive fun o => { o with atn := false }).Parsed ∧ s.needListener.sess.role = .listener
    ∧ s.needListener.sess.powered = true ∧ s.needListener.disp.curCmd = s.disp.curCmd := by
  obtain ⟨⟨hsound, ⟨hdav, heoi, hifc, hlines, -⟩, hfree⟩, hatt, hphase⟩ := h
  unfold State.needListener
  split
  case isTrue hrole =>
    rw [hrole] at hlines
    obtain ⟨-, hnrfd, hndac, hoe⟩ := hlines
    have hrest : (s.drive fun o => { o with atn := false }).Rested :=
      ⟨hdav, heoi, hifc, by rw [State.drive_sess, hrole]; exact ⟨rfl, hnrfd, hndac, hoe⟩, .inl hpow⟩
    exact ⟨⟨⟨hsound, hrest, hfree⟩, hatt, hphase⟩, hrole, hpow, rfl⟩
  case isFalse =>
    exact ⟨⟨⟨hsound, ⟨rfl, rfl, hifc, ⟨rfl, rfl, rfl, rfl⟩, .inl hpow⟩, hfree⟩, hatt, hphase⟩, rfl, hpow, rfl⟩

theorem replyWith_pos_isReady (s : State) (bs : List Byte) : (s.replyWith bs).pos.isReady = false := by
  cases bs <;> rfl

theorem replyWith_cfg (s : State) (bs : List Byte) : (s.replyWith bs).cfg = s.cfg := by
  cases bs <;> rfl

/-- A command that is at most the write of a register, and a reply. -/
theorem execute_reply_inv (hi : i.isCommand = true) (c : Command) {write : State → State} {reply : State → List Byte}
    (hwrite : ∀ u, u.Parsed → u.cfg = s.cfg → (write u).Parsed) (hcfg : ∀ u, (write u).cfg = u.cfg) (hfree : s.Free)
    (hatt : s.Attentive) : (execute i c (fun u => (write u).replyWith (reply u)) s).inv = true :=
  execute_inv hi c (fun u hu _ _ hu' => State.Replying.replyWith (.inl (hwrite u hu hu')) _)
    (fun _ => replyWith_pos_isReady _ _) (fun _ => (replyWith_cfg _ _).trans (hcfg _)) hfree hatt

theorem rejectLine_inv (hfree : s.Free) (hatt : s.Attentive) : (rejectLine s).inv = true :=
  run_inv ((inv_iff_fits _).mpr (State.Replying.replyWith
    (s := { s with disp := { s.disp with curCmd := some .syntaxError, phase := .dispatch } })
    (.inl ⟨hfree, hatt, rfl⟩) _))

theorem execPwrOff_inv (hfree : s.Free) (hatt : s.Attentive) :
    (beginTurns (fun u => u.powerOff.toCleanup) s.sched (s.dispatched .pwrOff .pwrOff)).inv = true := by
  refine beginTurns_inv (fun u hr hu => ?_) _ (dispatched_awaits rfl hfree hatt)
  obtain ⟨hinv, hcfg, -⟩ := hu
  obtain ⟨-, -, ⟨⟨hsound, -⟩, hatt, -⟩, -⟩ := parsed_of_ready hinv hr
  obtain ⟨hsound', hrest', huntimed'⟩ := hsound.powerOff
  refine ⟨(inv_iff_fits _).mpr ⟨⟨hsound', hatt, hrest', rfl⟩, .inr huntimed'⟩, hcfg, fun h => ?_⟩
  exact absurd h Bool.false_ne_true

/-! ## The instructions -/

/-- The instruction can be executed here: a command or a rejected line between operations, what is no line where the
parser was, an item where items are taken. -/
def State.MayRun (s : State) : Instr → Prop
  | .syntaxError (.oversized _ _) => Pos.body.Fits s
  | .resync _ => Pos.resync.Fits s
  | .escStart | .escEsc | .escEnd | .escChk | .escOther _ | .literal _ => s.inv = true ∧ s.pos.takesItems = true
  | _ => s.Free ∧ s.Attentive

/-- The invariant holds of the next state. -/
def KeepsInv (o : Host.Outcome State Fault Refusal) : Prop := ∀ t, o = .next t → t.inv = true

theorem keepsInv_next {t : State} (h : t.inv = true) : KeepsInv (.next t) := by
  rintro _ ⟨⟩
  exact h

/-- The operand of `t` is reduced to the width of its register (R30, R122). -/
theorem byteTimeoutOperand_lt {cfg : Cfg} {d : Digits} {v : Half} (h : byteTimeoutOperand cfg d = some v) :
    v.toNat < 2 ^ cfg.byteTimeoutWidth.bits := by
  unfold byteTimeoutOperand at h
  split at h <;> cases h
  rw [BitVec.toNat_ofNat]
  exact Nat.lt_of_le_of_lt (Nat.mod_le _ _) (Nat.mod_lt _ (Nat.two_pow_pos _))

/-- `t`: the one register write that the invariant bounds. -/
theorem execSetByteTimeout_inv (d : Digits) (hfree : s.Free) (hatt : s.Attentive) :
    KeepsInv (execSetByteTimeout d s) := by
  unfold execSetByteTimeout
  cases hv : byteTimeoutOperand s.cfg d with
  | none => exact keepsInv_next (rejectLine_inv hfree hatt)
  | some v =>
    refine keepsInv_next (execute_reply_inv (write := fun u => { u with tmo := { u.tmo with byteTimeout := v } }) rfl _
      (fun u hu hcfg => ?_) (fun _ => rfl) hfree hatt)
    obtain ⟨⟨⟨hok, hdebug, -, hsound⟩, hrest⟩, hparsed⟩ := hu
    exact ⟨⟨⟨hok, hdebug, hcfg ▸ byteTimeoutOperand_lt hv, hsound⟩, hrest⟩, hparsed⟩

theorem exec_inv (h : s.MayRun i) : KeepsInv (exec i s) := by
  cases i with
  | pwron | status | setRen _ | setSrq _ =>
    exact keepsInv_next (execute_reply_inv rfl _ (fun _ hu _ => hu) (fun _ => rfl) h.1 h.2)
  | ident n => exact keepsInv_next (execute_reply_inv (write := id) rfl _ (fun _ hu _ => hu) (fun _ => rfl) h.1 h.2)
  | busRst =>
    exact keepsInv_next (execute_inv rfl _ (fun u hu hpow _ _ => busResetStep_fits (st := .z1) _ ⟨.inl hu, hpow⟩)
      (fun _ => rfl) (fun _ => rfl) h.1 h.2)
  | pwrOff => exact keepsInv_next (execPwrOff_inv h.1 h.2)
  | setByteTimeout d => exact execSetByteTimeout_inv d h.1 h.2
  | setWriteMode d =>
    simp only [exec, execSetWriteMode]
    cases writeModeOperand d with
    | none => exact keepsInv_next (rejectLine_inv h.1 h.2)
    | some v => exact keepsInv_next (execute_reply_inv rfl _ (fun _ hu _ => hu) (fun _ => rfl) h.1 h.2)
  | setTotalTimeout d | setFirstTimeout d =>
    simp only [exec, execSetTotalTimeout, execSetFirstTimeout]
    cases wideTimeoutOperand d with
    | none => exact keepsInv_next (rejectLine_inv h.1 h.2)
    | some v => exact keepsInv_next (execute_reply_inv rfl _ (fun _ hu _ => hu) (fun _ => rfl) h.1 h.2)
  | busCmdRelease b | busCmdHold b | blk =>
    refine keepsInv_next (execute_inv rfl _ (fun u hu hpow hcmd _ => ?_) (fun _ => rfl) (fun u => ?_) h.1 h.2)
    · obtain ⟨hparsed, hrole, hpow', hcmd'⟩ := hu.needTalker hpow
      exact ⟨hparsed, hrole, hpow', hcmd'.trans hcmd⟩
    · exact congrArg Registers.cfg (needTalker_registers u).registers
  | recvBlk | recvByte =>
    refine keepsInv_next (execute_inv rfl _ (fun u hu hpow hcmd _ => ?_) (fun _ => rfl) (fun u => ?_) h.1 h.2)
    · obtain ⟨hparsed, hrole, hpow', hcmd'⟩ := hu.needListener hpow
      exact ⟨hparsed, hrole, hpow', hcmd'.trans hcmd⟩
    · exact congrArg Registers.cfg (needListener_registers u).registers
  | escStart | escEsc | escEnd | escChk | escOther _ | literal _ =>
    exact keepsInv_next (run_inv (decodeByte_inv h.1 h.2 _ _))
  | syntaxError bad =>
    cases bad with
    | line body => exact keepsInv_next (rejectLine_inv h.1 h.2)
    | oversized body b =>
      exact keepsInv_next (run_inv ((inv_iff_fits (s.goto (.put [s.cfg.nak] .resync))).mpr h))
  | resync bad =>
    refine keepsInv_next (run_inv ?_)
    split
    · exact State.Free.toCleanup h.1 h.2.1
    · exact (inv_iff_fits _).mpr h

end Sys2Proof.Machine
end

section
/-! PROOF. The fetch keeps the invariant and reads only what can be executed where it stands (R143, R253, R256, R269),
and so every step keeps it. -/

namespace Sys2Proof.Machine

variable {s : State} {i : Instr} {b : Byte}

/-! ## One byte -/

/-- The fetch is under way: the next byte is awaited at the leader, in a line, in a block or in the drain. -/
def State.Fetching (s : State) : Prop :=
  s.inv = true ∧ (s.pos = .leader ∨ s.pos = .body ∨ s.pos.takesItems = true)

/-- What the fetch leaves: the invariant where it goes on or is abandoned, an instruction that can be executed. -/
def Fetched.Keeps : Fetched → Prop
  | .more s => s.Fetching
  | .instr i s => s.MayRun i
  | .abandon s => s.inv = true

/-- A poll that finds a suspend ends what was being read (R190, R266, R269). -/
theorem fetchAborted_inv (hs : s.abt.suspended = true) (h : s.Fetching) : (fetchAborted s).inv = true := by
  obtain ⟨hinv, hp⟩ := h
  unfold fetchAborted
  split
  case h_1 hitem =>
    obtain ⟨hsrc, hdav, heoi, -⟩ := fits_at hinv hitem
    exact (inv_iff_fits _).mpr (hsrc.finish hdav heoi .suspended)
  case h_2 hdrain =>
    obtain ⟨hclosing, huntimed, -⟩ := fits_at hinv hdrain
    exact (inv_iff_fits _).mpr ⟨hclosing, huntimed⟩
  case h_3 hni hnd =>
    have hfree : s.Free := by
      obtain hp | hp | hp := hp
      · exact (fits_at hinv hp).1
      · exact (fits_at hinv hp).1
      · cases hpos : s.pos with
        | item => exact absurd hpos hni
        | drain => exact absurd hpos hnd
        | _ => rw [hpos] at hp; cases hp
    exact hfree.toCleanup (.inr hs)

/-- What an item's bytes make is an item. -/
theorem mayRun_of_itemByte {st : CodecState} (hi : itemByte s.cfg st b = some i) (h : s.inv = true)
    (hp : s.pos.takesItems = true) : s.MayRun i := by
  cases st with
  | normal =>
    simp only [itemByte] at hi
    split at hi <;> cases hi
    exact ⟨h, hp⟩
  | sawEscape =>
    cases hi
    unfold escapedItem
    repeat' split
    all_goals exact ⟨h, hp⟩

theorem mayRun_of_isCommand (hi : i.isCommand = true) (hfree : s.Free) (hatt : s.Attentive) : s.MayRun i := by
  cases i with
  | escStart | escEsc | escEnd | escChk | escOther _ | literal _ | syntaxError _ | resync _ => cases hi
  | _ => exact ⟨hfree, hatt⟩

/-- A line is a command, or is rejected (R111). -/
theorem mayRun_decodeLine (body : List Byte) (hfree : s.Free) (hatt : s.Attentive) : s.MayRun (decodeLine body) := by
  cases hl : lineCommand body with
  | none => rw [decodeLine_of_lineCommand_none hl]; exact ⟨hfree, hatt⟩
  | some i =>
    have hi : decodeLine body = i := by simp [decodeLine, hl]
    rw [hi]
    exact mayRun_of_isCommand (body_of_lineCommand hl).1 hfree hatt

theorem fetchByte_more (hp : s.pos = .leader ∨ s.pos = .body) {st : ParseState}
    (h : parseByte s.cfg s.parser b = .more st) : fetchByte b s = .more (s.setParser st) := by
  simp only [fetchByte, if_neg (not_block_of_command hp), h]

theorem fetchByte_done (hp : s.pos = .leader ∨ s.pos = .body) (h : parseByte s.cfg s.parser b = .done i) :
    fetchByte b s = .instr i s := by
  simp only [fetchByte, if_neg (not_block_of_command hp), h]

/-- A byte at the leader (R253, R254). -/
theorem fetchByte_leader_keeps (hp : s.pos = .leader) (h : s.inv = true) (hatt : s.Attentive) :
    (fetchByte b s).Keeps := by
  obtain ⟨hfree, hphase, hcmd, hbuf, -⟩ := fits_at h hp
  have resync {bad : BadLeader} (hb : parseByte s.cfg s.parser b = .done (.resync bad)) : (fetchByte b s).Keeps := by
    rw [fetchByte_done (.inl hp) hb]
    exact ⟨hfree, hatt, .inl hphase, hcmd⟩
  by_cases hidx : s.disp.leaderIdx = 0
  · have hparser : s.parser = .leader0 := by simp [State.parser, hp, hidx]
    by_cases hb : b = s.cfg.leader0
    · rw [fetchByte_more (st := .leader1) (.inl hp) (by simp [parseByte, hparser, hb])]
      exact ⟨(inv_iff_fits (s.setParser .leader1)).mpr ⟨hfree, hphase, hcmd, hbuf, .inr hatt⟩, .inl rfl⟩
    · exact resync (bad := .first b) (by simp [parseByte, hparser, hb])
  · have hparser : s.parser = .leader1 := by simp [State.parser, hp, hidx]
    by_cases hb : b = s.cfg.leader1
    · rw [fetchByte_more (st := .body []) (.inl hp) (by simp [parseByte, hparser, hb])]
      obtain ⟨⟨hok, hdebug, hwidth, -, hsound⟩, hfree⟩ := hfree
      exact ⟨(inv_iff_fits (s.setParser (.body []))).mpr
        ⟨⟨⟨hok, hdebug, hwidth, Nat.zero_le _, hsound⟩, hfree⟩, hatt, rfl, hcmd⟩, .inr (.inl rfl)⟩
    · exact resync (bad := .second b) (by simp [parseByte, hparser, hb])

/-- A byte in a line, by the tests of R256 in their order. -/
theorem fetchByte_body_keeps (hp : s.pos = .body) (h : s.inv = true) : (fetchByte b s).Keeps := by
  have hbody := fits_at h hp
  obtain ⟨hfree, hatt, hphase, hcmd⟩ := hbody
  have hparser : s.parser = .body s.disp.cmdBuf := by simp [State.parser, hp]
  by_cases hterm : b = s.cfg.term
  · rw [fetchByte_done (.inr hp) (by rw [hparser, hterm, parseByte_term])]
    exact mayRun_decodeLine _ hfree hatt
  by_cases hmark : s.disp.cmdBuf = [s.cfg.escape] ∧ b = s.cfg.blockStart
  · rw [fetchByte_done (i := .blk) (.inr hp) (by simp only [hparser, parseByte, if_neg hterm, if_pos hmark])]
    exact ⟨hfree, hatt⟩
  by_cases hlen : s.cfg.maxCmdLen ≤ s.disp.cmdBuf.length
  · rw [fetchByte_done (i := .syntaxError (.oversized s.disp.cmdBuf b)) (.inr hp)
      (by simp only [hparser, parseByte, if_neg hterm, if_neg hmark, if_pos hlen])]
    exact ⟨hfree, hatt, hphase, hcmd⟩
  · rw [fetchByte_more (st := .body (s.disp.cmdBuf ++ [b])) (.inr hp)
      (by simp only [hparser, parseByte, if_neg hterm, if_neg hmark, if_neg hlen])]
    obtain ⟨⟨hok, hdebug, hwidth, -, hsound⟩, hfree⟩ := hfree
    have hlen' : (s.disp.cmdBuf ++ [b]).length ≤ s.cfg.maxCmdLen := by
      rw [List.length_append]
      exact Nat.lt_of_not_le hlen
    exact ⟨(inv_iff_fits (s.setParser (.body _))).mpr
      ⟨⟨⟨hok, hdebug, hwidth, hlen', hsound⟩, hfree⟩, hatt, rfl, hcmd⟩, .inr (.inl rfl)⟩

/-- A byte in a block or in the drain (R125, R143). -/
theorem fetchByte_item_keeps (hp : s.pos.takesItems = true) (h : s.inv = true) : (fetchByte b s).Keeps := by
  have hplace : s.pos = .item ∨ s.pos = .drain := by
    cases hpos : s.pos with
    | item => exact .inl rfl
    | drain => exact .inr rfl
    | _ => rw [hpos] at hp; cases hp
  unfold fetchByte
  rw [if_pos hplace]
  cases hi : itemByte s.cfg s.xfer.codec b with
  | some i => exact mayRun_of_itemByte hi h hp
  | none => exact ⟨h, .inr (.inr hp)⟩

/-! ## The turns of a fetch, and a step -/

theorem fetchPoll_keeps (h : s.Fetching) : (fetchPoll s).Keeps := by
  have hk := hostGet_keeps h.1
  unfold fetchPoll
  cases hg : hostGet s with
  | abort =>
    have hs : s.abt.suspended = true := by
      rcases hostGet_cases s with ⟨hs, -⟩ | ⟨-, -, he⟩ | ⟨b, rest, -, -, he⟩
      · exact hs
      · rw [hg] at he; cases he
      · rw [hg] at he; cases he
    exact fetchAborted_inv hs h
  | empty t =>
    rw [hg] at hk
    exact ⟨hk.1, hk.2 ▸ h.2⟩
  | byte b t =>
    rw [hg] at hk
    obtain ⟨ht, hpos, hatt⟩ := hk
    obtain ⟨-, hp⟩ := h
    rw [← hpos] at hp
    obtain hp | hp | hp := hp
    · exact fetchByte_leader_keeps hp ht hatt
    · exact fetchByte_body_keeps hp ht
    · exact fetchByte_item_keeps hp ht

theorem turn_fetching (t : Turn) (h : s.Fetching) : (s.turn t).Fetching := by
  refine ⟨turn_keeps (fun u => u.inv = true) act_inv t s h.1, ?_⟩
  obtain hp | hp := turn_pos t s
  · exact hp ▸ h.2
  · exact .inl hp

theorem fetchTurns_keeps_inv (ts : List Turn) (h : s.Fetching) : (fetchTurns ts s).Keeps := by
  induction ts generalizing s with
  | nil => exact h
  | cons t ts ih =>
    have hp := fetchPoll_keeps (turn_fetching t h)
    unfold fetchTurns
    generalize fetchPoll (s.turn t) = r at hp ⊢
    cases r with
    | more u => exact ih hp
    | instr i u => cases i <;> exact hp
    | abandon u => exact hp

theorem fetching_of_isFetch (h : s.inv = true) (hf : s.pos.isFetch = true) (hr : ∀ i, s.pos ≠ .ready i) : s.Fetching := by
  refine ⟨h, ?_⟩
  cases hp : s.pos with
  | leader => exact .inl rfl
  | body => exact .inr (.inl rfl)
  | item | drain => exact .inr (.inr rfl)
  | ready i => exact absurd hp (hr i)
  | _ => rw [hp] at hf; cases hf

/-- Settles O24: by the kind of position; the fetch, the instruction it reads and the run each keep the invariant. -/
theorem stepKeepsInvariant : Obligations.StepKeepsInvariant := by
  unfold Obligations.StepKeepsInvariant
  intro s t h ht
  unfold step at ht
  split at ht
  case h_1 i hp =>
    obtain ⟨⟨hfree, hatt, -⟩, hi, -⟩ := fits_at h hp
    exact exec_inv (mayRun_of_isCommand hi hfree hatt) t ht
  case h_2 hnr =>
    split at ht
    case isTrue hf =>
      have hk := fetchTurns_keeps_inv s.sched (fetching_of_isFetch h hf hnr)
      generalize fetchTurns s.sched s = r at hk ht
      cases r with
      | more u => cases ht; exact hk.1
      | instr i u => exact exec_inv hk t ht
      | abandon u => cases ht; exact run_inv hk
    case isFalse => cases ht; exact run_inv h

end Sys2Proof.Machine
end


section
/-! PROOF. The three waits of the source handshake when they fail (R180, R266, R322, R326): under attention the bus reset,
the code and the end of the command; inside a block also the drain, unless its end marker has been taken. -/

namespace Sys2Proof.Machine

variable {s : State} {ts : List Turn} {st : SrcStep} {r : Reason} {b code : Byte} {eoi : Bool} {k : SrcReturn}

/-! ## A wait that fails -/

/-- A wait of `SrcHandshake` whose condition is false, and the reason and the code of its failure. -/
def State.SourceStuck (s : State) (st : SrcStep) (r : Reason) (code : Byte) : Prop :=
  (st = .s2 ∧ s.nrfdIn = false ∧ s.ndacIn = false ∧ code = 0x08#8 ∧ r = .noListener)
  ∨ (st = .s3 ∧ s.nrfdIn = true ∧ code = 0x01#8 ∧ r = .notReady)
  ∨ (st = .s6 ∧ s.ndacIn = true ∧ code = 0x02#8 ∧ r = .notAccepted)

theorem State.SourceStuck.code_eq (h : s.SourceStuck st r code) (c : Cfg) : (Result.failed r).code c = some code := by
  rcases h with ⟨-, -, -, rfl, rfl⟩ | ⟨-, -, rfl, rfl⟩ | ⟨-, -, rfl, rfl⟩ <;> rfl

theorem State.SourceStuck.resetsBus (h : s.SourceStuck st r code) : (Result.failed r).resetsBus = true := by
  rcases h with ⟨-, -, -, -, rfl⟩ | ⟨-, -, -, rfl⟩ | ⟨-, -, -, rfl⟩ <;> rfl

theorem wait_expired {cond cancelable : Bool} (hc : cond = false) (hs : s.abt.suspended = false)
    (ht : s.abt.timedOut = true) : wait cond r cancelable s = some (.failed r, s.stamp (some r)) := by
  simp [wait, hc, hs, ht]

/-- With the flag set each of the three goes to SF with its own reason stamped (R171, R321). -/
theorem fg_src_expired (h : s.SourceStuck st r code) (hp : s.pos = .src st b eoi k) (hs : s.abt.suspended = false)
    (ht : s.abt.timedOut = true) : fg s = (s.stamp (some r)).goto (.src (.sf (.failed r)) b eoi k) := by
  rcases h with ⟨rfl, hnrfd, hndac, -, rfl⟩ | ⟨rfl, hnrfd, -, rfl⟩ | ⟨rfl, hndac, -, rfl⟩
  · have hw := wait_expired (r := .noListener) (cancelable := false) (cond := s.nrfdIn || s.ndacIn)
      (by rw [hnrfd, hndac]; rfl) hs ht
    simp only [fg, hp, srcStep, hw]
    rfl
  · have hw := wait_expired (r := .notReady) (cancelable := false) (cond := !s.nrfdIn) (by rw [hnrfd]; rfl) hs ht
    simp only [fg, hp, srcStep, hw]
    rfl
  · have hw := wait_expired (r := .notAccepted) (cancelable := false) (cond := !s.ndacIn) (by rw [hndac]; rfl) hs ht
    simp only [fg, hp, srcStep, hw]
    rfl

/-- A step that begins in the middle of an instruction, with a quiet turn first. -/
theorem step_midway_quiet (hf : s.pos.isFetch = false) (hsched : s.sched = [] :: ts) :
    step s = .next (runTurns ts (fg s)) := by
  rw [step_midway s hf, run_eq, hsched, runTurns_quiet ts s hf]

/-! ## Under attention -/

/-- Settles O57: the wait fails, and `runTurns_command_failed` goes on to the end of the command. -/
theorem sourceTimeouts : Obligations.SourceTimeouts := by
  unfold Obligations.SourceTimeouts
  intro s st b code release ts hp ht hs hd hstuck hsched
  obtain ⟨r, h⟩ : ∃ r, s.SourceStuck st r code := by
    rcases hstuck with ⟨hst, hnrfd, hndac, hcode⟩ | ⟨hst, hnrfd, hcode⟩ | ⟨hst, hndac, hcode⟩
    · exact ⟨_, .inl ⟨hst, hnrfd, hndac, hcode, rfl⟩⟩
    · exact ⟨_, .inr (.inl ⟨hst, hnrfd, hcode, rfl⟩)⟩
    · exact ⟨_, .inr (.inr ⟨hst, hndac, hcode, rfl⟩)⟩
  rw [step_midway_quiet (ts := quietTurns 9 ++ ts) (by rw [hp]; rfl) hsched,
    fg_src_expired h hp (canSend_iff.mp hs).1 ht]
  exact congrArg _ (runTurns_command_failed (s := s.stamp (some r)) h.resetsBus (h.code_eq _) hs hd)

/-! ## Inside a block -/

/-- After a reply inside a block that is not done CORE awaits the rest of the block (R265, R266). -/
def State.draining (s : State) (ts : List Turn) : State :=
  { s.endOp with disp := { s.disp with phase := .cleanup }, pos := .drain, sched := ts }

theorem runTurns_replyByte_drain (b : Byte) (hs : s.canSend = true) (hd : s.disp.curCmd = some .sendBlk)
    (hb : s.xfer.blockDone = false) :
    runTurns (quietTurns 3 ++ ts) (s.replyWith [b]) = (s.sent [b]).draining ts := by
  have hput : fg (s.replyWith [b]) = (s.sent [b]).toCleanup := fg_put (s.replyWith [b]) b [] .cleanup rfl hs
  have hk1 : fg (s.sent [b]).toCleanup = (s.sent [b]).toCleanup.endOp.goto .k2 := rfl
  have hk2 : fg ((s.sent [b]).toCleanup.endOp.goto .k2) = (s.sent [b]).toCleanup.endOp.goto .drain :=
    if_pos ⟨hd, hb, (canSend_iff.mp hs).1⟩
  show runTurns ([] :: [] :: [] :: ts) _ = _
  rw [runTurns_quiet _ _ rfl, hput, runTurns_quiet _ _ rfl, hk1, runTurns_quiet _ _ rfl, hk2, runTurns_fetch _ _ rfl]
  rfl

theorem runTurns_busReset_drain (reply : Byte) (hs : s.canSend = true) (hd : s.disp.curCmd = some .sendBlk)
    (hb : s.xfer.blockDone = false) :
    runTurns (quietTurns 6 ++ ts) (s.goto (.busReset .z1 reply)) =
      ((s.onBus .idle s.out.released).sent [reply]).draining ts := by
  show runTurns ([] :: [] :: [] :: (quietTurns 3 ++ ts)) _ = _
  rw [runTurns_quiet _ _ rfl, fg_busReset_z1, runTurns_quiet _ _ rfl, fg_busReset_z2, runTurns_quiet _ _ rfl,
    fg_busReset_z3]
  exact runTurns_replyByte_drain (s := s.onBus .idle s.out.released) reply hs hd hb

/-- Settles O58: the wait fails, SF releases DAV and EOI, and after the bus reset the block is drained, or, its end
marker taken, the command is over. -/
theorem blockTimeoutDrains : Obligations.BlockTimeoutDrains := by
  unfold Obligations.BlockTimeoutDrains
  intro s st b code eoi r ts ht hs hd h
  have hstuck : s.SourceStuck st r code := h
  have hsusp := (canSend_iff.mp hs).1
  refine ⟨fun next hp hb hsched => ?_, fun hp hb hsched => ?_⟩
  · have hsf : fg ((s.stamp (some r)).goto (.src (.sf (.failed r)) b eoi (.data next))) =
        ((s.stamp (some r)).drive fun o => { o with dav := false, eoi := false }).goto (.busReset .z1 code) :=
      finish_busReset hstuck.resetsBus (hstuck.code_eq _)
    rw [step_midway_quiet (ts := [] :: (quietTurns 6 ++ ts)) (by rw [hp]; rfl) hsched,
      fg_src_expired hstuck hp hsusp ht, runTurns_quiet _ _ rfl, hsf]
    exact congrArg _ (runTurns_busReset_drain (s := (s.stamp (some r)).drive _) code hs hd hb)
  · have hsf : fg ((s.stamp (some r)).goto (.src (.sf (.failed r)) b eoi .last)) =
        (((s.stamp (some r)).drive fun o => { o with dav := false, eoi := false }).setXfer fun x =>
          { x with holdValid := false }).goto (.busReset .z1 code) :=
      finish_busReset hstuck.resetsBus (hstuck.code_eq _)
    rw [step_midway_quiet (ts := [] :: (quietTurns 7 ++ ts)) (by rw [hp]; rfl) hsched,
      fg_src_expired hstuck hp hsusp ht, runTurns_quiet _ _ rfl, hsf]
    exact congrArg _ (runTurns_busReset (s := ((s.stamp (some r)).drive _).setXfer _) code hs (.inr hb))

end Sys2Proof.Machine
end

section
/-! PROOF. The waits of the acceptor when they fail or are cancelled (R200, R203, R204, R210, R322): the listener asserts
its lines again, a block is closed toward the host whatever ended it, and then comes the code, after a bus reset where
one is due. -/

namespace Sys2Proof.Machine

variable {s : State} {ts : List Turn} {w : Result} {r : Reason} {code : Byte} {eoi : Bool}

/-! ## The end of the block toward the host -/

/-- The outcome of ReceiveBlock is finished after the end marker has gone to the host (R200). -/
theorem runTurns_receiveFin (hw : w ≠ .suspended) (hs : s.canSend = true) :
    ∃ last, runTurns (quietTurns 2 ++ ts) (receiveFin w s) =
      runTurns ts (receiveReturned w ((s.sent (encEnd s.cfg)).goto (.put [last] (.blockEnd w)))) := by
  have hfin : receiveFin w s = s.goto (.put (encEnd s.cfg) (.blockEnd w)) := if_neg hw
  rw [hfin]
  exact runTurns_put (.blockEnd w) ts (encEnd s.cfg) (s.goto (.put (encEnd s.cfg) (.blockEnd w))) rfl
    (by simp [encEnd]) hs

/-- A failure after which the bus is reset. -/
theorem runTurns_receiveFin_reset (hr : (Result.failed r).resetsBus = true)
    (hcode : (Result.failed r).code s.cfg = some code) (hs : s.canSend = true) (hd : s.disp.curCmd ≠ some .sendBlk) :
    runTurns (quietTurns 9 ++ ts) (receiveFin (.failed r) s) =
      ((s.onBus .idle s.out.released).sent (encEnd s.cfg ++ [code])).ended ts := by
  obtain ⟨last, h⟩ := runTurns_receiveFin (w := .failed r) (ts := quietTurns 7 ++ ts) nofun hs
  have hreset : receiveReturned (.failed r) ((s.sent (encEnd s.cfg)).goto (.put [last] (.blockEnd (.failed r)))) =
      (s.sent (encEnd s.cfg)).goto (.busReset .z1 code) :=
    finish_busReset (s := (s.sent (encEnd s.cfg)).goto _) hr hcode
  rw [← sent_sent]
  exact h.trans (hreset ▸ runTurns_busReset (s := s.sent (encEnd s.cfg)) code hs (.inl hd))

/-- A success, or a cancel, which counts as one (R203). -/
theorem runTurns_receiveFin_ok (hw : w = .ok ∨ w = .cancelled) (hs : s.canSend = true)
    (hd : s.disp.curCmd ≠ some .sendBlk) :
    runTurns (quietTurns 6 ++ ts) (receiveFin w s) = (s.sent (encEnd s.cfg ++ [s.cfg.ack])).ended ts := by
  have hsusp : w ≠ .suspended := by rcases hw with rfl | rfl <;> nofun
  obtain ⟨last, h⟩ := runTurns_receiveFin (w := w) (ts := quietTurns 4 ++ ts) hsusp hs
  have hok (u : State) : receiveReturned w u = u.replyWith [u.cfg.ack] := by rcases hw with rfl | rfl <;> rfl
  rw [hok] at h
  rw [← sent_sent]
  exact h.trans (runTurns_replyByte (s := (s.sent (encEnd s.cfg)).goto _) _ hs (.inl hd))

/-! ## The four ends -/

theorem runTurns_l7_expired (hp : s.pos = .l7 eoi) (hdav : s.davIn = true) (ht : s.abt.timedOut = true)
    (hs : s.canSend = true) (hd : s.disp.curCmd ≠ some .sendBlk) :
    runTurns (quietTurns 10 ++ ts) (fg s) =
      ((s.onBus .idle s.out.released).sent (encEnd s.cfg ++ [0x03#8])).ended ts := by
  have hw := wait_expired (r := .davNotReleased) (cancelable := false) (cond := !s.davIn) (by rw [hdav]; rfl)
    (canSend_iff.mp hs).1 ht
  have hl7 : fg s = (s.stamp (some .davNotReleased)).goto (.l8 (.failed .davNotReleased) eoi) := by
    simp only [fg, hp, receiveL7, hw, polling_some]
  have hl8 : fg ((s.stamp (some .davNotReleased)).goto (.l8 (.failed .davNotReleased) eoi)) =
      receiveFin (.failed .davNotReleased) (((s.stamp (some .davNotReleased)).goto _).drive fun o =>
        { o with ndac := true }) := rfl
  show runTurns ([] :: (quietTurns 9 ++ ts)) _ = _
  rw [hl7, runTurns_quiet _ _ rfl, hl8]
  exact runTurns_receiveFin_reset (s := ((s.stamp _).goto _).drive _) rfl rfl hs hd

theorem runTurns_y7_expired (hp : s.pos = .y7) (hdav : s.davIn = true) (ht : s.abt.timedOut = true)
    (hs : s.canSend = true) (hd : s.disp.curCmd ≠ some .sendBlk) :
    runTurns (quietTurns 8 ++ ts) (fg s) = ((s.onBus .idle s.out.released).sent [0x03#8]).ended ts := by
  have hw := wait_expired (r := .davNotReleased) (cancelable := false) (cond := !s.davIn) (by rw [hdav]; rfl)
    (canSend_iff.mp hs).1 ht
  have hy7 : fg s = (s.stamp (some .davNotReleased)).goto (.y8 (.failed .davNotReleased)) := by
    simp only [fg, hp, receiveByteY7, hw, polling_some]
  have hy8 : fg ((s.stamp (some .davNotReleased)).goto (.y8 (.failed .davNotReleased))) =
      ((s.stamp (some .davNotReleased)).drive fun o => { o with ndac := true }).goto (.busReset .z1 0x03#8) := rfl
  show runTurns ([] :: (quietTurns 7 ++ ts)) _ = _
  rw [hy7, runTurns_quiet _ _ rfl, hy8]
  exact runTurns_busReset (s := (s.stamp _).drive _) _ hs (.inl hd)

/-- The one wait that the host can cancel (R203). -/
theorem runTurns_l2_cancelled (hp : s.pos = .l2) (hdav : s.davIn = false) (ht : s.abt.timedOut = false)
    (hcancel : s.inp.hostCancel = true) (hs : s.canSend = true) (hd : s.disp.curCmd ≠ some .sendBlk) :
    runTurns (quietTurns 7 ++ ts) (fg s) =
      (State.sent { s with out := { s.out with nrfd := true } } (encEnd s.cfg ++ [s.cfg.ack])).ended ts := by
  have hw : wait s.davIn .noData true s = some (.cancelled, s) := by
    simp [wait, hdav, (canSend_iff.mp hs).1, ht, hcancel]
  have hl2 : fg s = s.goto (.l2f .cancelled) := by
    simp only [fg, hp, receiveL2, hw, polling_some, reduceCtorEq, if_false]
  have hl2f : fg (s.goto (.l2f .cancelled)) =
      receiveFin .cancelled ((s.goto _).drive fun o => { o with nrfd := true }) :=
    rfl
  show runTurns ([] :: (quietTurns 6 ++ ts)) _ = _
  rw [hl2, runTurns_quiet _ _ rfl, hl2f]
  exact runTurns_receiveFin_ok (s := (s.goto _).drive _) (.inr rfl) hs hd

/-- Settles O59: each wait by its own end, one turn after its poll. -/
theorem acceptorWaitsEnd : Obligations.AcceptorWaitsEnd := by
  unfold Obligations.AcceptorWaitsEnd
  intro s eoi ts hs hd
  refine ⟨fun hp hdav ht hsched => ?_, fun hp hdav ht hsched => ?_, fun hp hdav ht hsched => ?_,
    fun hp hdav ht hcancel hsched => ?_⟩
  · rw [step_midway_quiet (ts := quietTurns 10 ++ ts) (by rw [hp]; rfl) hsched, runTurns_l7_expired hp hdav ht hs hd]
  · rw [step_midway_quiet (ts := quietTurns 8 ++ ts) (by rw [hp]; rfl) hsched, runTurns_y7_expired hp hdav ht hs hd]
  · rw [step_midway_quiet (ts := quietTurns 7 ++ ts) (by rw [hp]; rfl) hsched, ← State.goto_self hp,
      runTurns_l2_expired hdav hs ht hd]
    rfl
  · rw [step_midway_quiet (ts := quietTurns 7 ++ ts) (by rw [hp]; rfl) hsched,
      runTurns_l2_cancelled hp hdav ht hcancel hs hd]

end Sys2Proof.Machine
end

section
/-! PROOF. `?` with a talker (R200, R202, R285): one lemma for the turns in which one byte passes through L1 to L9, and
an induction over the bytes. -/

namespace Sys2Proof.Machine

variable {s : State} {i : Inputs} {ts : List Turn} {b : Byte} {e : Bool}

/-! ## The first line of a command that accepts bytes, whatever NDAC was -/

/-- CORE drives none of a source's lines. -/
def BusOut.Sourceless (o : BusOut) : Prop := o.dav = false ∧ o.eoi = false ∧ o.dioOe = false

/-- `needListener_listening`, where NDAC is still to be asserted. -/
theorem needListener_sourceless (h : s.sess.role = .listener → s.out.Sourceless) :
    ∃ o : BusOut, s.needListener = s.onBus .listener o ∧ o.Sourceless ∧
      { o with atn := false, nrfd := true, ndac := true } = s.out.listening := by
  unfold State.needListener
  split
  case isFalse => exact ⟨_, rfl, ⟨rfl, rfl, rfl⟩, rfl⟩
  case isTrue hr =>
    obtain ⟨hdav, heoi, hoe⟩ := h hr
    refine ⟨s.out, by rw [← hr]; rfl, h hr, ?_⟩
    simp only [BusOut.listening, hdav, heoi, hoe]

/-- `execute_needListener`, where NDAC is still to be asserted. -/
theorem execute_sourceless (i : Instr) (c : Command) {p : Pos} (hp : p.isReady = false) (hl : s.linesFitRole = true)
    (hsched : s.sched = quietTurns s.beginning ++ ts) :
    ∃ o : BusOut, execute i c (fun u => u.needListener.goto p) s = runTurns ts ((s.asListener c o).goto p)
      ∧ o.Sourceless ∧ { o with atn := false, nrfd := true, ndac := true } = s.out.listening := by
  have hlines : s.poweredUp.sess.role = .listener → s.out.Sourceless := by
    intro hr
    have hrole : s.sess.role = .listener := role_of_poweredUp nofun hr
    simp only [State.linesFitRole, hrole, Bool.and_eq_true, Bool.not_eq_true', and_assoc] at hl
    obtain ⟨hdav, heoi, hoe, -⟩ := hl
    exact ⟨hdav, heoi, hoe⟩
  obtain ⟨o, ho, hout⟩ :=
    needListener_sourceless (s := State.dispatched { s with sess := s.poweredUp.sess } i c) hlines
  refine ⟨o, ?_, hout⟩
  rw [execute_poweredUp i c (fun _ => hp) hsched, poweredUp_eq, ho]
  rfl

/-! ## What a listener senses -/

theorem wait_ok {cond cancelable : Bool} {r : Reason} (h : cond = true) : wait cond r cancelable s = some (.ok, s) :=
  if_pos h

theorem davIn_offering (hi : s.inp = i.offering b e) : s.davIn = true := by
  rw [State.davIn, hi]
  rfl

theorem dioIn_offering (ho : s.out.Sourceless) (hi : s.inp = i.offering b e) : s.dioIn = b := by
  simp [State.dioIn, hi, ho.2.2, Inputs.offering]

theorem eoiIn_offering (ho : s.out.Sourceless) (hi : s.inp = i.offering b e) : s.eoiIn = e := by
  simp [State.eoiIn, hi, ho.2.1, Inputs.senseLine, Inputs.offering]

theorem fg_l2_ok (hdav : s.davIn = true) : fg (s.goto .l2) = s.goto .l3 := by
  show polling (wait s.davIn .noData true (s.goto .l2)) _ _ = _
  rw [wait_ok hdav]
  rfl

theorem fg_l7_ok (hdav : s.davIn = false) : fg (s.goto (.l7 e)) = s.goto (.l8 .ok e) := by
  show polling (wait (!s.davIn) .davNotReleased false (s.goto (.l7 e))) _ _ = _
  rw [wait_ok (by rw [hdav]; rfl)]
  rfl

/-! ## One byte -/

/-- CORE has accepted what it reports with `bs` to the host; the levels are `i` again. -/
def State.heard (s : State) (i : Inputs) (bs : List Byte) : State :=
  { s with out := { s.out with nrfd := true, ndac := true }, inp := i, tx := s.tx ++ bs }

/-- CORE is ready for data while the talker offers `b`. -/
def State.hearing (s : State) (i : Inputs) (b : Byte) (e : Bool) : State :=
  { s with out := { s.out with nrfd := false }, inp := i.offering b e }

/-- Ready for data, and the byte and EOI captured (L1 to L3). -/
theorem runTurns_l1_offering (ho : s.out.Sourceless) :
    runTurns ([] :: [.inputs (i.offering b e)] :: [] :: ts) (s.goto .l1) =
      runTurns ts ((s.hearing i b e).goto (.l4 b e)) := by
  have hl2 : fg ((s.hearing i b e).goto .l2) = (s.hearing i b e).goto .l3 :=
    fg_l2_ok (davIn_offering (i := i) (b := b) (e := e) rfl)
  have hl3 : fg ((s.hearing i b e).goto .l3) = (s.hearing i b e).goto (.l4 b e) := by
    show State.goto _ (.l4 (s.hearing i b e).dioIn (s.hearing i b e).eoiIn) = _
    rw [dioIn_offering (s := s.hearing i b e) ho rfl, eoiIn_offering (s := s.hearing i b e) ho rfl]
    rfl
  rw [runTurns_quiet _ _ rfl, runTurns_cons _ _ _ rfl rfl]
  show runTurns ([] :: ts) (fg ((s.hearing i b e).goto .l2)) = _
  rw [hl2, runTurns_quiet _ _ rfl, hl3]

/-- Data accepted, and data-valid released (L6 to L8). -/
theorem runTurns_l6_released (ho : s.out.Sourceless) (hi : i.lines.dav = false) :
    runTurns ([] :: [.inputs i] :: [] :: ts) (s.goto (.l6 e)) =
      runTurns ts (State.goto { s with out := { s.out with ndac := true }, inp := i } (.l9 e)) := by
  have hl7 : fg (State.goto { s with out := { s.out with ndac := false }, inp := i } (.l7 e)) =
      State.goto { s with out := { s.out with ndac := false }, inp := i } (.l8 .ok e) :=
    fg_l7_ok (davIn_eq_false hi ho.1)
  rw [runTurns_quiet _ _ rfl, runTurns_cons _ _ _ rfl rfl]
  show runTurns ([] :: ts) (fg (State.goto { s with out := { s.out with ndac := false }, inp := i } (.l7 e))) = _
  rw [hl7, runTurns_quiet _ _ rfl]
  rfl

/-- The turns of one byte, up to the poll that finds it the last one or not (L1 to L9). -/
theorem runTurns_talkerByte (ho : s.out.Sourceless) (hs : s.canSend = true) (hi : i.restful = true) :
    runTurns (talkerByte s.cfg i b e ++ ts) (s.goto .l1) =
      runTurns ts (receiveL9 e ((s.heard i (encPut s.cfg b)).goto (.l9 e))) := by
  simp only [Inputs.restful, Bool.and_eq_true, Bool.not_eq_true', and_assoc] at hi
  obtain ⟨hdav, hfull, -⟩ := hi
  have hturns : talkerByte s.cfg i b e ++ ts = [] :: [.inputs (i.offering b e)] :: [] :: [] ::
      (quietTurns (encPut s.cfg b).length ++ [] :: [.inputs i] :: [] :: [] :: ts) := by
    simp [talkerByte]
  have hne : encPut s.cfg b ≠ [] := by
    unfold encPut
    split <;> nofun
  have hput : (s.heard (i.offering b e) []).canSend = true := canSend_iff.mpr ⟨(canSend_iff.mp hs).1, hfull⟩
  have hl4 : fg ((s.hearing i b e).goto (.l4 b e)) =
      State.goto { s with out := { s.out with nrfd := true }, inp := i.offering b e }
        (.put (encPut s.cfg b) (.captured e)) := rfl
  obtain ⟨last, hcaptured⟩ := runTurns_put (.captured e) ([] :: [.inputs i] :: [] :: [] :: ts) (encPut s.cfg b)
    (State.goto { s with out := { s.out with nrfd := true }, inp := i.offering b e }
      (.put (encPut s.cfg b) (.captured e))) rfl hne hput
  rw [hturns, runTurns_l1_offering ho, runTurns_quiet _ _ rfl, hl4]
  refine hcaptured.trans ?_
  refine (runTurns_l6_released (s := State.sent { s with out := { s.out with nrfd := true }, inp := i.offering b e }
    (encPut s.cfg b)) ho hdav).trans ?_
  rw [runTurns_quiet _ _ rfl]
  rfl

/-! ## All bytes -/

/-- The end of the transfer, its counters cleared by `EndOp`. -/
theorem runTurns_received (bs : List Byte) (hs : s.canSend = true) (hd : s.disp.curCmd ≠ some .sendBlk)
    (hfull : i.txFull = false) :
    runTurns (quietTurns 6 ++ ts) (receiveL9 true ((s.heard i bs).goto (.l9 true))) =
      ((s.heard i bs).sent (encEnd s.cfg ++ [s.cfg.ack])).ended ts :=
  runTurns_receiveFin_ok (s := ((s.heard i bs).goto (.l9 true)).byteDone) (.inl rfl)
    (canSend_iff.mpr ⟨(canSend_iff.mp hs).1, hfull⟩) hd

theorem heard_heard (bs cs : List Byte) : (s.heard i bs).heard i cs = s.heard i (bs ++ cs) := by
  simp [State.heard]

theorem runTurns_talkerTurns {p : List Byte} (hp : p ≠ []) (ho : s.out.Sourceless) (hs : s.canSend = true)
    (hd : s.disp.curCmd ≠ some .sendBlk) (hi : i.restful = true) :
    runTurns (talkerTurns s.cfg i p ++ (quietTurns 6 ++ ts)) (s.goto .l1) =
      ((s.heard i (encPayload s.cfg p)).sent (encEnd s.cfg ++ [s.cfg.ack])).ended ts := by
  have hfull : i.txFull = false := by
    simp only [Inputs.restful, Bool.and_eq_true, Bool.not_eq_true'] at hi
    exact hi.1.2
  induction p generalizing s with
  | nil => exact absurd rfl hp
  | cons b rest ih =>
    cases rest with
    | nil =>
      have hlast : encPayload s.cfg [b] = encPut s.cfg b := List.append_nil _
      have hturns : talkerTurns s.cfg i [b] = talkerByte s.cfg i b true := rfl
      rw [hlast, hturns, runTurns_talkerByte ho hs hi, runTurns_received _ hs hd hfull]
    | cons b' rest =>
      have hturns : talkerTurns s.cfg i (b :: b' :: rest) ++ (quietTurns 6 ++ ts) = talkerByte s.cfg i b false ++
          (talkerTurns s.cfg i (b' :: rest) ++ (quietTurns 6 ++ ts)) := List.append_assoc _ _ _
      have hcan : (s.heard i (encPut s.cfg b)).byteDone.canSend = true :=
        canSend_iff.mpr ⟨(canSend_iff.mp hs).1, hfull⟩
      have hrest := ih (s := (s.heard i (encPut s.cfg b)).byteDone) (List.cons_ne_nil _ _) ho hcan hd
      rw [hturns, runTurns_talkerByte ho hs hi, encPayload_cons, ← heard_heard]
      exact hrest

/-! ## The command -/

/-- The operation has begun, attention is released, and the block is open toward the host (V2 to L0). -/
def State.openedBlock (s : State) : State :=
  (({ s with out := { s.out with atn := false }, xfer := { s.xfer with dir := .receive } }
    |>.sent (encStart s.cfg)).setPhase .transfer).beginOp

theorem runTurns_v2_l1 (hs : s.canSend = true) :
    runTurns (quietTurns 5 ++ ts) (s.goto .v2) = runTurns ts (s.openedBlock.goto .l1) := by
  show runTurns ([] :: [] :: [] :: (quietTurns 2 ++ ts)) _ = _
  rw [runTurns_quiet _ _ rfl, runTurns_quiet _ _ rfl, runTurns_quiet _ _ rfl]
  exact runTurns_encStart (s := ((s.drive fun o => { o with atn := false }).beginOp.setPhase .transfer).setXfer
    fun x => { x with dir := .receive }) hs

/-- Settles O54: the block is opened, every byte passes through L1 to L9, and the one with EOI closes the block. -/
theorem receiveBlockDelivers : Obligations.ReceiveBlockDelivers := by
  unfold Obligations.ReceiveBlockDelivers
  intro s i p ts hs hl hi hp hsched
  rw [quietTurns_add, List.append_assoc, List.append_assoc, List.append_assoc] at hsched
  obtain ⟨o, hbegin, ho, hout⟩ := execute_sourceless .recvBlk .recvBlk (p := .v2) rfl hl hsched
  have htalk := runTurns_talkerTurns (s := (s.asListener .recvBlk o).openedBlock) (ts := ts) hp ho hs nofun hi
  have hblock : encodeBlock s.cfg p ++ [s.cfg.ack] =
      encStart s.cfg ++ (encPayload s.cfg p ++ (encEnd s.cfg ++ [s.cfg.ack])) := by simp [encodeBlock]
  rw [runTurns_v2_l1 (s := s.asListener .recvBlk o) hs] at hbegin
  refine congrArg Host.Outcome.next ((hbegin.trans htalk).trans ?_)
  rw [poweredUp_eq, ← hout, hblock, ← sent_sent _ (encStart s.cfg), ← sent_sent _ (encPayload s.cfg p)]
  rfl

end Sys2Proof.Machine
end

section
/-! PROOF. `B` (R210, R211, R286): it polls on at Y2 and Y7 whatever the host's cancel, and ends with the byte or with
the null byte. -/

namespace Sys2Proof.Machine

variable {s : State} {i : Inputs} {ts : List Turn} {b : Byte} {e : Bool} {k j n : Nat}

/-! ## The two waits, which the host's cancel does not end -/

theorem wait_polls_on {cond : Bool} {r : Reason} (hc : cond = false) (hs : s.abt.suspended = false)
    (ht : s.abt.timedOut = false) : wait cond r false s = none := by
  simp [wait, hc, hs, ht]

/-- Polls for data-valid, any number. -/
theorem runTurns_y2_polls (hs : s.abt.suspended = false) (h : k = 0 ∨ s.davIn = false ∧ s.abt.timedOut = false) :
    runTurns (quietTurns k ++ ts) (s.goto .y2) = runTurns ts (s.goto .y2) := by
  obtain rfl | ⟨hdav, ht⟩ := h
  · rfl
  · have hstays : fg (s.goto .y2) = s.goto .y2 := by
      show polling (wait s.davIn .noData false (s.goto .y2)) _ _ = _
      rw [wait_polls_on (s := s.goto .y2) hdav hs ht, polling_none]
    exact runTurns_stays hstays rfl k ts

/-- Polls for the release of data-valid, any number. -/
theorem runTurns_y7_polls (hs : s.abt.suspended = false) (hdav : s.davIn = true)
    (h : j = 0 ∨ s.abt.timedOut = false) :
    runTurns (quietTurns j ++ ts) (s.goto .y7) = runTurns ts (s.goto .y7) := by
  obtain rfl | ht := h
  · rfl
  · have hstays : fg (s.goto .y7) = s.goto .y7 := by
      show polling (wait (!s.davIn) .davNotReleased false (s.goto .y7)) _ _ = _
      rw [hdav, Bool.not_true, wait_polls_on (s := s.goto .y7) rfl hs ht, polling_none]
    exact runTurns_stays hstays rfl j ts

theorem fg_y2_ok (hdav : s.davIn = true) : fg (s.goto .y2) = s.goto .y3 := by
  show polling (wait s.davIn .noData false (s.goto .y2)) _ _ = _
  rw [wait_ok hdav]
  rfl

theorem fg_y2_expired (hdav : s.davIn = false) (hs : s.abt.suspended = false) (ht : s.abt.timedOut = true) :
    fg (s.goto .y2) = (s.stamp (some .noData)).goto (.y2f (.failed .noData)) := by
  show polling (wait s.davIn .noData false (s.goto .y2)) _ _ = _
  rw [wait_expired hdav (s := s.goto .y2) hs ht]
  rfl

theorem fg_y7_ok (hdav : s.davIn = false) : fg (s.goto .y7) = s.goto (.y8 .ok) := by
  show polling (wait (!s.davIn) .davNotReleased false (s.goto .y7)) _ _ = _
  rw [wait_ok (by rw [hdav]; rfl)]
  rfl

/-! ## The parts of the handshake -/

/-- The operation has begun, attention is released, and CORE is ready for data (W2 to Y1). -/
def State.acceptingByte (s : State) : State :=
  (State.setPhase { s with out := { s.out with atn := false, nrfd := false } } .transfer).beginOp

theorem runTurns_w2 : runTurns (quietTurns 3 ++ ts) (s.goto .w2) = runTurns ts (s.acceptingByte.goto .y2) := by
  show runTurns ([] :: [] :: [] :: ts) _ = _
  rw [runTurns_quiet _ _ rfl, runTurns_quiet _ _ rfl, runTurns_quiet _ _ rfl]
  rfl

/-- CORE has captured `b` and reported it, while the talker still offers it. -/
def State.reported (s : State) (i : Inputs) (b : Byte) (e : Bool) : State :=
  State.sent { s with out := { s.out with nrfd := true, ndac := false }, inp := i.offering b e } [b]

/-- The byte is captured and goes to the host as it is (Y2 to Y6). -/
theorem runTurns_y2_offering (ho : s.out.Sourceless) (hs : s.abt.suspended = false) (hi : i.txFull = false) :
    runTurns ([.inputs (i.offering b e)] :: (quietTurns 4 ++ ts)) (s.goto .y2) =
      runTurns ts ((s.reported i b e).goto .y7) := by
  have hy2 : fg (State.goto { s with inp := i.offering b e } .y2) = State.goto { s with inp := i.offering b e } .y3 :=
    fg_y2_ok (davIn_offering (i := i) (b := b) (e := e) rfl)
  have hy3 : fg (State.goto { s with inp := i.offering b e } .y3) =
      State.goto { s with inp := i.offering b e } (.y4 b) := by
    show State.goto _ (.y4 (State.dioIn { s with inp := i.offering b e })) = _
    rw [dioIn_offering (s := { s with inp := i.offering b e }) ho rfl]
    rfl
  have hy4 : fg (State.goto { s with inp := i.offering b e } (.y4 b)) =
      State.goto { s with out := { s.out with nrfd := true }, inp := i.offering b e } (.put [b] .rawByte) := rfl
  have hput := fg_put
    (State.goto { s with out := { s.out with nrfd := true }, inp := i.offering b e } (.put [b] .rawByte))
    b [] .rawByte rfl (canSend_iff.mpr ⟨hs, hi⟩)
  rw [runTurns_cons _ _ _ rfl rfl]
  show runTurns ([] :: [] :: [] :: [] :: ts) (fg (State.goto { s with inp := i.offering b e } .y2)) = _
  rw [hy2, runTurns_quiet _ _ rfl, hy3, runTurns_quiet _ _ rfl, hy4, runTurns_quiet _ _ rfl, hput, if_pos rfl,
    runTurns_quiet _ _ rfl]
  rfl

/-- Data-valid is released, and the command ends with `ACK` (Y7 to Y9). -/
theorem runTurns_y7_released (ho : s.out.dav = false) (hs : s.abt.suspended = false) (hdav : i.lines.dav = false)
    (hi : i.txFull = false) (hd : s.disp.curCmd ≠ some .sendBlk) :
    runTurns ([.inputs i] :: (quietTurns 6 ++ ts)) (s.goto .y7) =
      (State.sent { s with out := { s.out with ndac := true }, inp := i } [s.cfg.ack]).ended ts := by
  have hy7 : fg (State.goto { s with inp := i } .y7) = State.goto { s with inp := i } (.y8 .ok) :=
    fg_y7_ok (davIn_eq_false hdav ho)
  rw [runTurns_cons _ _ _ rfl rfl]
  show runTurns ([] :: [] :: (quietTurns 4 ++ ts)) (fg (State.goto { s with inp := i } .y7)) = _
  rw [hy7, runTurns_quiet _ _ rfl, runTurns_quiet _ _ rfl]
  exact runTurns_replyByte (s := State.byteDone { s with out := { s.out with ndac := true }, inp := i }) s.cfg.ack
    (canSend_iff.mpr ⟨hs, hi⟩) (.inl hd)

/-- The null byte and `ACK` (Y2, R211). -/
theorem runTurns_y2_expired (hdav : s.davIn = false) (hs : s.canSend = true) (ht : s.abt.timedOut = true)
    (hd : s.disp.curCmd ≠ some .sendBlk) :
    runTurns (quietTurns 6 ++ ts) (fg (s.goto .y2)) =
      (State.sent { s with out := { s.out with nrfd := true } } [s.cfg.nullByte, s.cfg.ack]).ended ts := by
  have hy2f : fg ((s.stamp (some .noData)).goto (.y2f (.failed .noData))) =
      ((s.stamp (some .noData)).drive fun o => { o with nrfd := true }).goto (.put [s.cfg.nullByte] .nullByte) := rfl
  have hput := fg_put
    (((s.stamp (some .noData)).drive fun o => { o with nrfd := true }).goto (.put [s.cfg.nullByte] .nullByte))
    s.cfg.nullByte [] .nullByte rfl hs
  have hnull : [s.cfg.nullByte, s.cfg.ack] = [s.cfg.nullByte] ++ [s.cfg.ack] := rfl
  rw [fg_y2_expired hdav (canSend_iff.mp hs).1 ht]
  show runTurns ([] :: [] :: (quietTurns 4 ++ ts)) _ = _
  rw [runTurns_quiet _ _ rfl, hy2f, runTurns_quiet _ _ rfl, hput, if_pos rfl, hnull, ← sent_sent]
  exact runTurns_replyByte
    (s := State.stamp (State.sent { s with out := { s.out with nrfd := true } } [s.cfg.nullByte]) none)
    s.cfg.ack hs (.inl hd)

/-! ## The command -/

theorem recvByte_hears (hs : s.canSend = true) (hl : s.linesFitRole = true)
    (hpoll : k + j = 0 ∨ s.abt.timedOut = false) (hdav : k = 0 ∨ s.inp.lines.dav = false)
    (hrel : i.lines.dav = false) (hfull : i.txFull = false)
    (hsched : s.sched = quietTurns (s.beginning + 3 + k) ++ [Event.inputs (i.offering b e)] :: (quietTurns (4 + j) ++
      [Event.inputs i] :: (quietTurns 6 ++ ts))) :
    exec .recvByte s = .next
      (({ s.poweredUp.onBus .listener s.out.listening with inp := i }.sent [b, s.cfg.ack]).ended ts) := by
  rw [quietTurns_add, quietTurns_add, quietTurns_add 4 j, List.append_assoc, List.append_assoc, List.append_assoc]
    at hsched
  obtain ⟨o, hbegin, ho, hout⟩ := execute_sourceless .recvByte .recvByte (p := .w2) rfl hl hsched
  have hsusp := (canSend_iff.mp hs).1
  have hk : k = 0 ∨ (s.asListener .recvByte o).acceptingByte.davIn = false ∧ s.abt.timedOut = false := by
    obtain hk0 | hline := hdav
    · exact .inl hk0
    · exact hpoll.imp (fun h => by omega) fun ht => ⟨davIn_eq_false hline ho.1, ht⟩
  have hj : j = 0 ∨ s.abt.timedOut = false := hpoll.imp_left fun h => by omega
  have hbytes : [b, s.cfg.ack] = [b] ++ [s.cfg.ack] := rfl
  have hwaits := runTurns_y2_polls (s := (s.asListener .recvByte o).acceptingByte) (ts := [.inputs (i.offering b e)] ::
    (quietTurns 4 ++ (quietTurns j ++ [.inputs i] :: (quietTurns 6 ++ ts)))) hsusp hk
  have hcaptures := runTurns_y2_offering (s := (s.asListener .recvByte o).acceptingByte) (b := b) (e := e)
    (ts := quietTurns j ++ [.inputs i] :: (quietTurns 6 ++ ts)) ho hsusp hfull
  have hholds := runTurns_y7_polls (s := (s.asListener .recvByte o).acceptingByte.reported i b e)
    (ts := [.inputs i] :: (quietTurns 6 ++ ts)) hsusp (davIn_offering (i := i) (b := b) (e := e) rfl) hj
  have hends := runTurns_y7_released (s := (s.asListener .recvByte o).acceptingByte.reported i b e) (ts := ts)
    ho.1 hsusp hrel hfull nofun
  rw [runTurns_w2, hwaits, hcaptures, hholds, hends] at hbegin
  refine congrArg Host.Outcome.next (hbegin.trans ?_)
  rw [poweredUp_eq, ← hout, hbytes, ← sent_sent]
  rfl

theorem recvByte_unanswered (hs : s.canSend = true) (hl : s.linesFitRole = true)
    (hpoll : k = 0 ∨ s.abt.timedOut = false) (harmed : s.tmo.tickArmed = true)
    (hndac : s.sess.role = .listener → s.out.ndac = true)
    (hdav : s.inp.lines.dav = false) (hn : n = s.tmo.firstBound) (hpos : 0 < n)
    (hsched : s.sched = quietTurns (s.beginning + 3 + k) ++ List.replicate n Event.tick :: (quietTurns 6 ++ ts)) :
    exec .recvByte s = .next
      (((s.poweredUp.onBus .listener s.out.listening).sent [s.cfg.nullByte, s.cfg.ack]).ended ts) := by
  rw [quietTurns_add, quietTurns_add, List.append_assoc, List.append_assoc] at hsched
  obtain ⟨o, hbegin, hout⟩ := execute_needListener .recvByte .recvByte (p := .w2) rfl hl hndac hsched
  have hdavIn : (s.asListener .recvByte o).acceptingByte.davIn = false :=
    davIn_eq_false hdav (congrArg BusOut.dav hout)
  obtain ⟨bc, tc, hexpired⟩ := runTurns_ticks_expired (ts := quietTurns 6 ++ ts)
    (s := (s.asListener .recvByte o).acceptingByte) (p := .y2) rfl rfl harmed hn hpos
  have hends := runTurns_y2_expired (ts := ts) (s := (s.asListener .recvByte o).acceptingByte.expired bc tc)
    hdavIn hs rfl nofun
  have hwaits := runTurns_y2_polls (s := (s.asListener .recvByte o).acceptingByte)
    (ts := List.replicate n Event.tick :: (quietTurns 6 ++ ts)) (canSend_iff.mp hs).1
    (hpoll.imp_right fun ht => ⟨hdavIn, ht⟩)
  rw [runTurns_w2, hwaits, hexpired, hends] at hbegin
  refine congrArg Host.Outcome.next (hbegin.trans ?_)
  rw [poweredUp_eq, ← hout]
  rfl

/-- Settles O56: the byte, or, at the bound of the first byte, the null byte. -/
theorem receiveByteCompletes : Obligations.ReceiveByteCompletes := by
  unfold Obligations.ReceiveByteCompletes
  intro s k j ts hs hl hpoll hdav
  refine ⟨fun i b e hrel hfull hsched => recvByte_hears hs hl hpoll hdav hrel hfull hsched,
    fun n harmed hndac hline hn hpos hsched => ?_⟩
  exact recvByte_unanswered hs hl (hpoll.imp_left fun h => by omega) harmed hndac hline hn hpos hsched

end Sys2Proof.Machine
end
